-- ==== Sys2Proof/Word.lean ====
section
/-! DEFINITION. The two word types of the machine (00_scope.md R4: XLEN_DATA = 8, XLEN_ADDR = 16). -/

namespace Sys2Proof

/-- A register, a flags byte or a memory cell: 8 bits (R4, XLEN_DATA). -/
abbrev Byte := BitVec 8

/-- A program counter or an address: 16 bits (R4, XLEN_ADDR). -/
abbrev Word := BitVec 16

end Sys2Proof
end

