-- ==== Sys2Proof/Config.lean ====
section
/-! DEFINITION. What is fixed for the machine: the named parameters of 00_scope.md R4, and the types the
dispatch table is written in (30_encoding.md R52, R53). Nothing here is a free value: the spec gives the
machine a value everywhere (R5). -/

namespace Sys2Proof

namespace Config

/-- R4, MEM_SIZE: bytes of memory. -/
def memSize : Nat := 65536

/-- R4, SP_RESET: the stack pointer after construction and after reset(). -/
def spReset : Byte := 0xFD#8

/-- R4, P_RESET: the status byte after construction and after reset(), InterruptDisable and Break2. -/
def pReset : Byte := 0x24#8

/-- R4, RESET_VECTOR: address of the low byte of the start address; the high byte is one above. -/
def resetVector : Word := 0xFFFC#16

/-- R4, HALT_OPCODE. -/
def haltOpcode : Byte := 0x00#8

/-- R4, STACK: base address of the stack page. UNVERIFIED, unsafe: the spec's decision D5 (log entry 7). -/
def stackBase : Word := 0x0100#16

/-- R4, LOAD_BASE: where load() places the image. UNVERIFIED, unsafe: the spec's decision D6 (log entry 8). -/
def loadBase : Word := 0x8000#16

/-- R4, LSR_UPDATES_ZN. UNVERIFIED, unsafe: the spec's decision D8 (log entry 10). -/
def lsrUpdatesZN : Bool := true

/-- R4, INDY_PTR_WRAP. UNVERIFIED, unsafe: the spec's decision D9 (log entry 11). -/
def indyPtrWrap : Bool := true

end Config

/-- The handlers of the dispatch table: one per mnemonic of 30_encoding.md R54. -/
inductive Handler where
  | lda | ldx | ldy | sta | tax | txa
  | adc | and | ora
  | asl | rol | lsr
  | inx | dex | inc | dec | cmp | cpx | cpy | bit
  | sec | clc | bcc | bcs | beq | bne | bmi | bpl
  | jmp | jsr | rts | php
  | nop | halt
  deriving DecidableEq, Repr

/-- The mode labels of 30_encoding.md R51 and R52. Implied, accumulator and relative are the three
sub-kinds of the source's tag NoneAddressing. -/
inductive Mode where
  | implied | accumulator | immediate
  | zeroPage | zeroPageX | zeroPageY
  | absolute | absoluteX | absoluteY
  | indirectX | indirectY | relative
  deriving DecidableEq, Repr

/-- The four values of the "handler owns PC" flag (30_encoding.md R53). -/
inductive OwnsPc where
  | no | yes | ifTaken | halts
  deriving DecidableEq, Repr

/-- One entry of the dispatch table (30_encoding.md R53). -/
structure Descriptor where
  handler       : Handler
  mode          : Mode
  operandLength : Nat
  ownsPc        : OwnsPc
  deriving DecidableEq, Repr

end Sys2Proof
end

