-- ==== Sys2Proof/Syntax.lean ====
section
/-! DEFINITION. The instructions: one constructor per row of spec/opcode_table.json (30_encoding.md R54), a pair of
mnemonic and mode, carrying the operand the mode takes (R50, R55): d an operand byte, a a 16-bit little-endian
operand, r a signed branch offset. -/

namespace Sys2Proof

inductive Instr where
  -- load, store and transfer (41)
  /-- `LDA #d`, opcode 0xA9, R100. -/
  | ldaImm (d : Byte)
  /-- `LDA d`, opcode 0xA5, R100. -/
  | ldaZp (d : Byte)
  /-- `LDA d,X`, opcode 0xB5, R100. -/
  | ldaZpX (d : Byte)
  /-- `LDA a`, opcode 0xAD, R100. -/
  | ldaAbs (a : Word)
  /-- `LDA a,X`, opcode 0xBD, R100. -/
  | ldaAbsX (a : Word)
  /-- `LDA a,Y`, opcode 0xB9, R100. -/
  | ldaAbsY (a : Word)
  /-- `LDA (d,X)`, opcode 0xA1, R100. -/
  | ldaIndX (d : Byte)
  /-- `LDA (d),Y`, opcode 0xB1, R100. -/
  | ldaIndY (d : Byte)
  /-- `LDX #d`, opcode 0xA2, R101. -/
  | ldxImm (d : Byte)
  /-- `LDX d`, opcode 0xA6, R101. -/
  | ldxZp (d : Byte)
  /-- `LDX d,Y`, opcode 0xB6, R101. -/
  | ldxZpY (d : Byte)
  /-- `LDX a`, opcode 0xAE, R101. -/
  | ldxAbs (a : Word)
  /-- `LDX a,Y`, opcode 0xBE, R101. -/
  | ldxAbsY (a : Word)
  /-- `LDY #d`, opcode 0xA0, R102. -/
  | ldyImm (d : Byte)
  /-- `LDY d`, opcode 0xA4, R102. -/
  | ldyZp (d : Byte)
  /-- `LDY d,X`, opcode 0xB4, R102. -/
  | ldyZpX (d : Byte)
  /-- `LDY a`, opcode 0xAC, R102. -/
  | ldyAbs (a : Word)
  /-- `LDY a,X`, opcode 0xBC, R102. -/
  | ldyAbsX (a : Word)
  /-- `STA d`, opcode 0x85, R103. -/
  | staZp (d : Byte)
  /-- `STA d,X`, opcode 0x95, R103. -/
  | staZpX (d : Byte)
  /-- `STA a`, opcode 0x8D, R103. -/
  | staAbs (a : Word)
  /-- `STA a,X`, opcode 0x9D, R103. -/
  | staAbsX (a : Word)
  /-- `STA a,Y`, opcode 0x99, R103. -/
  | staAbsY (a : Word)
  /-- `STA (d,X)`, opcode 0x81, R103. -/
  | staIndX (d : Byte)
  /-- `STA (d),Y`, opcode 0x91, R103. -/
  | staIndY (d : Byte)
  /-- `TAX`, opcode 0xAA, R104. -/
  | tax
  /-- `TXA`, opcode 0x8A, R105. -/
  | txa
  -- arithmetic and logic (42)
  /-- `ADC #d`, opcode 0x69, R110. -/
  | adcImm (d : Byte)
  /-- `ADC d`, opcode 0x65, R110. -/
  | adcZp (d : Byte)
  /-- `ADC d,X`, opcode 0x75, R110. -/
  | adcZpX (d : Byte)
  /-- `ADC a`, opcode 0x6D, R110. -/
  | adcAbs (a : Word)
  /-- `ADC a,X`, opcode 0x7D, R110. -/
  | adcAbsX (a : Word)
  /-- `ADC a,Y`, opcode 0x79, R110. -/
  | adcAbsY (a : Word)
  /-- `ADC (d,X)`, opcode 0x61, R110. -/
  | adcIndX (d : Byte)
  /-- `ADC (d),Y`, opcode 0x71, R110. -/
  | adcIndY (d : Byte)
  /-- `AND #d`, opcode 0x29, R111. -/
  | andImm (d : Byte)
  /-- `AND d`, opcode 0x25, R111. -/
  | andZp (d : Byte)
  /-- `AND d,X`, opcode 0x35, R111. -/
  | andZpX (d : Byte)
  /-- `AND a`, opcode 0x2D, R111. -/
  | andAbs (a : Word)
  /-- `AND a,X`, opcode 0x3D, R111. -/
  | andAbsX (a : Word)
  /-- `AND a,Y`, opcode 0x39, R111. -/
  | andAbsY (a : Word)
  /-- `AND (d,X)`, opcode 0x21, R111. -/
  | andIndX (d : Byte)
  /-- `AND (d),Y`, opcode 0x31, R111. -/
  | andIndY (d : Byte)
  /-- `ORA #d`, opcode 0x09, R112. -/
  | oraImm (d : Byte)
  /-- `ORA d`, opcode 0x05, R112. -/
  | oraZp (d : Byte)
  /-- `ORA d,X`, opcode 0x15, R112. -/
  | oraZpX (d : Byte)
  /-- `ORA a`, opcode 0x0D, R112. -/
  | oraAbs (a : Word)
  /-- `ORA a,X`, opcode 0x1D, R112. -/
  | oraAbsX (a : Word)
  /-- `ORA a,Y`, opcode 0x19, R112. -/
  | oraAbsY (a : Word)
  /-- `ORA (d,X)`, opcode 0x01, R112. -/
  | oraIndX (d : Byte)
  /-- `ORA (d),Y`, opcode 0x11, R112. -/
  | oraIndY (d : Byte)
  -- shift and rotate (43)
  /-- `ASL A`, opcode 0x0A, R120. -/
  | aslAcc
  /-- `ASL d`, opcode 0x06, R121. -/
  | aslZp (d : Byte)
  /-- `ASL d,X`, opcode 0x16, R121. -/
  | aslZpX (d : Byte)
  /-- `ASL a`, opcode 0x0E, R121. -/
  | aslAbs (a : Word)
  /-- `ASL a,X`, opcode 0x1E, R121. -/
  | aslAbsX (a : Word)
  /-- `ROL A`, opcode 0x2A, R122. -/
  | rolAcc
  /-- `ROL d`, opcode 0x26, R123. -/
  | rolZp (d : Byte)
  /-- `ROL d,X`, opcode 0x36, R123. -/
  | rolZpX (d : Byte)
  /-- `ROL a`, opcode 0x2E, R123. -/
  | rolAbs (a : Word)
  /-- `ROL a,X`, opcode 0x3E, R123. -/
  | rolAbsX (a : Word)
  /-- `LSR A`, opcode 0x4A, R124. -/
  | lsrAcc
  -- increment, decrement, compare, bit test (44)
  /-- `INX`, opcode 0xE8, R130. -/
  | inx
  /-- `DEX`, opcode 0xCA, R131. -/
  | dex
  /-- `INC d`, opcode 0xE6, R132. -/
  | incZp (d : Byte)
  /-- `INC d,X`, opcode 0xF6, R132. -/
  | incZpX (d : Byte)
  /-- `INC a`, opcode 0xEE, R132. -/
  | incAbs (a : Word)
  /-- `INC a,X`, opcode 0xFE, R132. -/
  | incAbsX (a : Word)
  /-- `DEC d`, opcode 0xC6, R133. -/
  | decZp (d : Byte)
  /-- `DEC d,X`, opcode 0xD6, R133. -/
  | decZpX (d : Byte)
  /-- `DEC a`, opcode 0xCE, R133. -/
  | decAbs (a : Word)
  /-- `DEC a,X`, opcode 0xDE, R133. -/
  | decAbsX (a : Word)
  /-- `CMP #d`, opcode 0xC9, R134. -/
  | cmpImm (d : Byte)
  /-- `CMP d`, opcode 0xC5, R134. -/
  | cmpZp (d : Byte)
  /-- `CMP d,X`, opcode 0xD5, R134. -/
  | cmpZpX (d : Byte)
  /-- `CMP a`, opcode 0xCD, R134. -/
  | cmpAbs (a : Word)
  /-- `CMP a,X`, opcode 0xDD, R134. -/
  | cmpAbsX (a : Word)
  /-- `CMP a,Y`, opcode 0xD9, R134. -/
  | cmpAbsY (a : Word)
  /-- `CMP (d,X)`, opcode 0xC1, R134. -/
  | cmpIndX (d : Byte)
  /-- `CMP (d),Y`, opcode 0xD1, R134. -/
  | cmpIndY (d : Byte)
  /-- `CPX #d`, opcode 0xE0, R135. -/
  | cpxImm (d : Byte)
  /-- `CPX d`, opcode 0xE4, R135. -/
  | cpxZp (d : Byte)
  /-- `CPX a`, opcode 0xEC, R135. -/
  | cpxAbs (a : Word)
  /-- `CPY #d`, opcode 0xC0, R136. -/
  | cpyImm (d : Byte)
  /-- `CPY d`, opcode 0xC4, R136. -/
  | cpyZp (d : Byte)
  /-- `CPY a`, opcode 0xCC, R136. -/
  | cpyAbs (a : Word)
  /-- `BIT d`, opcode 0x24, R137. -/
  | bitZp (d : Byte)
  /-- `BIT a`, opcode 0x2C, R137. -/
  | bitAbs (a : Word)
  -- flags and branches (45)
  /-- `SEC`, opcode 0x38, R140. -/
  | sec
  /-- `CLC`, opcode 0x18, R141. -/
  | clc
  /-- `BCC *+2+r`, opcode 0x90, R143. -/
  | bcc (r : Byte)
  /-- `BCS *+2+r`, opcode 0xB0, R144. -/
  | bcs (r : Byte)
  /-- `BEQ *+2+r`, opcode 0xF0, R145. -/
  | beq (r : Byte)
  /-- `BNE *+2+r`, opcode 0xD0, R146. -/
  | bne (r : Byte)
  /-- `BMI *+2+r`, opcode 0x30, R147. -/
  | bmi (r : Byte)
  /-- `BPL *+2+r`, opcode 0x10, R148. -/
  | bpl (r : Byte)
  -- jump, subroutine, stack (46)
  /-- `JMP a`, opcode 0x4C, R150. -/
  | jmpAbs (a : Word)
  /-- `JSR a`, opcode 0x20, R151. -/
  | jsrAbs (a : Word)
  /-- `RTS`, opcode 0x60, R152. -/
  | rts
  /-- `PHP`, opcode 0x08, R153. -/
  | php
  -- no-operation and halt (47)
  /-- `NOP`, opcode 0xEA, R160. -/
  | nop
  /-- `HALT`, opcode 0x00, R161. -/
  | halt
  deriving DecidableEq, Repr

end Sys2Proof
end

