-- ==== Sys2Proof/WellFormed.lean ====
section
/-! DEFINITION. When a dispatch-table entry, and an instruction, is well formed (30_encoding.md R51, R53, R54, R58).
An operand byte is never illegal (R57), so the only thing an entry can get wrong is its shape: a mode its mnemonic does
not have (R58 names the worst case, a memory handler with NoneAddressing), an operand length that is not its mode's, or
an owns-PC flag that is not its handler's. -/

namespace Sys2Proof

/-- Operand bytes of each mode (R51): a function of the mode alone. -/
def Mode.operandLength : Mode → Nat
  | .implied | .accumulator => 0
  | .immediate | .zeroPage | .zeroPageX | .zeroPageY | .indirectX | .indirectY | .relative => 1
  | .absolute | .absoluteX | .absoluteY => 2

/-- Who advances PC for each handler (R53; 40_dispatch_and_addressing.md R71). -/
def Handler.ownsPc : Handler → OwnsPc
  | .jmp | .jsr | .rts => .yes
  | .bcc | .bcs | .beq | .bne | .bmi | .bpl => .ifTaken
  | .halt => .halts
  | .lda | .ldx | .ldy | .sta | .tax | .txa | .adc | .and | .ora | .asl | .rol | .lsr | .inx | .dex | .inc | .dec
  | .cmp | .cpx | .cpy | .bit | .sec | .clc | .php | .nop => .no

/-- The modes of each mnemonic: the "Operands" line of its rule, the table of R54 by mnemonic. -/
def Handler.modes : Handler → List Mode
  | .lda => [.immediate, .zeroPage, .zeroPageX, .absolute, .absoluteX, .absoluteY, .indirectX, .indirectY]
  | .ldx => [.immediate, .zeroPage, .zeroPageY, .absolute, .absoluteY]
  | .ldy => [.immediate, .zeroPage, .zeroPageX, .absolute, .absoluteX]
  | .sta => [.zeroPage, .zeroPageX, .absolute, .absoluteX, .absoluteY, .indirectX, .indirectY]
  | .tax => [.implied]
  | .txa => [.implied]
  | .adc => [.immediate, .zeroPage, .zeroPageX, .absolute, .absoluteX, .absoluteY, .indirectX, .indirectY]
  | .and => [.immediate, .zeroPage, .zeroPageX, .absolute, .absoluteX, .absoluteY, .indirectX, .indirectY]
  | .ora => [.immediate, .zeroPage, .zeroPageX, .absolute, .absoluteX, .absoluteY, .indirectX, .indirectY]
  | .asl => [.accumulator, .zeroPage, .zeroPageX, .absolute, .absoluteX]
  | .rol => [.accumulator, .zeroPage, .zeroPageX, .absolute, .absoluteX]
  | .lsr => [.accumulator]
  | .inx => [.implied]
  | .dex => [.implied]
  | .inc => [.zeroPage, .zeroPageX, .absolute, .absoluteX]
  | .dec => [.zeroPage, .zeroPageX, .absolute, .absoluteX]
  | .cmp => [.immediate, .zeroPage, .zeroPageX, .absolute, .absoluteX, .absoluteY, .indirectX, .indirectY]
  | .cpx => [.immediate, .zeroPage, .absolute]
  | .cpy => [.immediate, .zeroPage, .absolute]
  | .bit => [.zeroPage, .absolute]
  | .sec => [.implied]
  | .clc => [.implied]
  | .bcc => [.relative]
  | .bcs => [.relative]
  | .beq => [.relative]
  | .bne => [.relative]
  | .bmi => [.relative]
  | .bpl => [.relative]
  | .jmp => [.absolute]
  | .jsr => [.absolute]
  | .rts => [.implied]
  | .php => [.implied]
  | .nop => [.implied]
  | .halt => [.implied]

/-- The mode is one the mnemonic has. -/
def Descriptor.modeAllowed (d : Descriptor) : Bool := d.handler.modes.contains d.mode

/-- The operand length is the mode's (R51). -/
def Descriptor.lengthMatches (d : Descriptor) : Bool := d.operandLength == d.mode.operandLength

/-- The owns-PC flag is the handler's (R53). -/
def Descriptor.ownerMatches (d : Descriptor) : Bool := d.ownsPc == d.handler.ownsPc

/-- A well-formed dispatch-table entry; any other is a malformed row (R58). -/
def Descriptor.wellFormed (d : Descriptor) : Bool := d.modeAllowed && d.lengthMatches && d.ownerMatches

/-- The mnemonic and mode a constructor stands for. -/
def Instr.form : Instr → Handler × Mode
  | .ldaImm _ => (.lda, .immediate)
  | .ldaZp _ => (.lda, .zeroPage)
  | .ldaZpX _ => (.lda, .zeroPageX)
  | .ldaAbs _ => (.lda, .absolute)
  | .ldaAbsX _ => (.lda, .absoluteX)
  | .ldaAbsY _ => (.lda, .absoluteY)
  | .ldaIndX _ => (.lda, .indirectX)
  | .ldaIndY _ => (.lda, .indirectY)
  | .ldxImm _ => (.ldx, .immediate)
  | .ldxZp _ => (.ldx, .zeroPage)
  | .ldxZpY _ => (.ldx, .zeroPageY)
  | .ldxAbs _ => (.ldx, .absolute)
  | .ldxAbsY _ => (.ldx, .absoluteY)
  | .ldyImm _ => (.ldy, .immediate)
  | .ldyZp _ => (.ldy, .zeroPage)
  | .ldyZpX _ => (.ldy, .zeroPageX)
  | .ldyAbs _ => (.ldy, .absolute)
  | .ldyAbsX _ => (.ldy, .absoluteX)
  | .staZp _ => (.sta, .zeroPage)
  | .staZpX _ => (.sta, .zeroPageX)
  | .staAbs _ => (.sta, .absolute)
  | .staAbsX _ => (.sta, .absoluteX)
  | .staAbsY _ => (.sta, .absoluteY)
  | .staIndX _ => (.sta, .indirectX)
  | .staIndY _ => (.sta, .indirectY)
  | .tax => (.tax, .implied)
  | .txa => (.txa, .implied)
  | .adcImm _ => (.adc, .immediate)
  | .adcZp _ => (.adc, .zeroPage)
  | .adcZpX _ => (.adc, .zeroPageX)
  | .adcAbs _ => (.adc, .absolute)
  | .adcAbsX _ => (.adc, .absoluteX)
  | .adcAbsY _ => (.adc, .absoluteY)
  | .adcIndX _ => (.adc, .indirectX)
  | .adcIndY _ => (.adc, .indirectY)
  | .andImm _ => (.and, .immediate)
  | .andZp _ => (.and, .zeroPage)
  | .andZpX _ => (.and, .zeroPageX)
  | .andAbs _ => (.and, .absolute)
  | .andAbsX _ => (.and, .absoluteX)
  | .andAbsY _ => (.and, .absoluteY)
  | .andIndX _ => (.and, .indirectX)
  | .andIndY _ => (.and, .indirectY)
  | .oraImm _ => (.ora, .immediate)
  | .oraZp _ => (.ora, .zeroPage)
  | .oraZpX _ => (.ora, .zeroPageX)
  | .oraAbs _ => (.ora, .absolute)
  | .oraAbsX _ => (.ora, .absoluteX)
  | .oraAbsY _ => (.ora, .absoluteY)
  | .oraIndX _ => (.ora, .indirectX)
  | .oraIndY _ => (.ora, .indirectY)
  | .aslAcc => (.asl, .accumulator)
  | .aslZp _ => (.asl, .zeroPage)
  | .aslZpX _ => (.asl, .zeroPageX)
  | .aslAbs _ => (.asl, .absolute)
  | .aslAbsX _ => (.asl, .absoluteX)
  | .rolAcc => (.rol, .accumulator)
  | .rolZp _ => (.rol, .zeroPage)
  | .rolZpX _ => (.rol, .zeroPageX)
  | .rolAbs _ => (.rol, .absolute)
  | .rolAbsX _ => (.rol, .absoluteX)
  | .lsrAcc => (.lsr, .accumulator)
  | .inx => (.inx, .implied)
  | .dex => (.dex, .implied)
  | .incZp _ => (.inc, .zeroPage)
  | .incZpX _ => (.inc, .zeroPageX)
  | .incAbs _ => (.inc, .absolute)
  | .incAbsX _ => (.inc, .absoluteX)
  | .decZp _ => (.dec, .zeroPage)
  | .decZpX _ => (.dec, .zeroPageX)
  | .decAbs _ => (.dec, .absolute)
  | .decAbsX _ => (.dec, .absoluteX)
  | .cmpImm _ => (.cmp, .immediate)
  | .cmpZp _ => (.cmp, .zeroPage)
  | .cmpZpX _ => (.cmp, .zeroPageX)
  | .cmpAbs _ => (.cmp, .absolute)
  | .cmpAbsX _ => (.cmp, .absoluteX)
  | .cmpAbsY _ => (.cmp, .absoluteY)
  | .cmpIndX _ => (.cmp, .indirectX)
  | .cmpIndY _ => (.cmp, .indirectY)
  | .cpxImm _ => (.cpx, .immediate)
  | .cpxZp _ => (.cpx, .zeroPage)
  | .cpxAbs _ => (.cpx, .absolute)
  | .cpyImm _ => (.cpy, .immediate)
  | .cpyZp _ => (.cpy, .zeroPage)
  | .cpyAbs _ => (.cpy, .absolute)
  | .bitZp _ => (.bit, .zeroPage)
  | .bitAbs _ => (.bit, .absolute)
  | .sec => (.sec, .implied)
  | .clc => (.clc, .implied)
  | .bcc _ => (.bcc, .relative)
  | .bcs _ => (.bcs, .relative)
  | .beq _ => (.beq, .relative)
  | .bne _ => (.bne, .relative)
  | .bmi _ => (.bmi, .relative)
  | .bpl _ => (.bpl, .relative)
  | .jmpAbs _ => (.jmp, .absolute)
  | .jsrAbs _ => (.jsr, .absolute)
  | .rts => (.rts, .implied)
  | .php => (.php, .implied)
  | .nop => (.nop, .implied)
  | .halt => (.halt, .implied)

/-- The dispatch-table entry an instruction is executed through. -/
def Instr.descriptor (i : Instr) : Descriptor :=
  { handler := i.form.1, mode := i.form.2, operandLength := i.form.2.operandLength, ownsPc := i.form.1.ownsPc }

/-- An instruction is well formed when its table entry is. -/
def Instr.wellFormed (i : Instr) : Bool := i.descriptor.wellFormed

end Sys2Proof
end

