-- ==== Sys2Proof/Decode.lean ====
section
/-! DEFINITION. The dispatch table (30_encoding.md R53, R54), the decoder, total on any bytes, and the encoder. The
decoder follows R54's table by opcode byte; the encoder follows R54's table by mnemonic, so that their agreement says
something. The opcode bytes are the spec's decision D1 (log entry 4). -/

namespace Sys2Proof

/-- The low byte of a 16-bit operand, stored first (R50, R55). -/
def loByte (w : Word) : Byte := w.setWidth 8

/-- The high byte of a 16-bit operand, stored second (R50, R55). -/
def hiByte (w : Word) : Byte := (w >>> 8).setWidth 8

/-- `{hi, lo} = hi * 256 + lo` (00_scope.md section 5). -/
def joinBytes (hi lo : Byte) : Word := hi ++ lo

/-- One row of R54's table by opcode byte. -/
structure OpRow where
  opcode : Byte
  entry  : Descriptor
  deriving DecidableEq, Repr

/-- A row from its columns opcode, mnemonic, mode, operand bytes, owns PC. -/
def opRow (opcode : Byte) (h : Handler) (m : Mode) (len : Nat) (owns : OwnsPc) : OpRow :=
  { opcode, entry := { handler := h, mode := m, operandLength := len, ownsPc := owns } }

/-- R54, opcodes 0x00 to 0x1F. -/
def opRows0 : List OpRow :=
  [ opRow 0x00#8 .halt .implied 0 .halts,
    opRow 0x01#8 .ora .indirectX 1 .no,
    opRow 0x05#8 .ora .zeroPage 1 .no,
    opRow 0x06#8 .asl .zeroPage 1 .no,
    opRow 0x08#8 .php .implied 0 .no,
    opRow 0x09#8 .ora .immediate 1 .no,
    opRow 0x0A#8 .asl .accumulator 0 .no,
    opRow 0x0D#8 .ora .absolute 2 .no,
    opRow 0x0E#8 .asl .absolute 2 .no,
    opRow 0x10#8 .bpl .relative 1 .ifTaken,
    opRow 0x11#8 .ora .indirectY 1 .no,
    opRow 0x15#8 .ora .zeroPageX 1 .no,
    opRow 0x16#8 .asl .zeroPageX 1 .no,
    opRow 0x18#8 .clc .implied 0 .no,
    opRow 0x19#8 .ora .absoluteY 2 .no,
    opRow 0x1D#8 .ora .absoluteX 2 .no,
    opRow 0x1E#8 .asl .absoluteX 2 .no ]

/-- R54, opcodes 0x20 to 0x3F. -/
def opRows1 : List OpRow :=
  [ opRow 0x20#8 .jsr .absolute 2 .yes,
    opRow 0x21#8 .and .indirectX 1 .no,
    opRow 0x24#8 .bit .zeroPage 1 .no,
    opRow 0x25#8 .and .zeroPage 1 .no,
    opRow 0x26#8 .rol .zeroPage 1 .no,
    opRow 0x29#8 .and .immediate 1 .no,
    opRow 0x2A#8 .rol .accumulator 0 .no,
    opRow 0x2C#8 .bit .absolute 2 .no,
    opRow 0x2D#8 .and .absolute 2 .no,
    opRow 0x2E#8 .rol .absolute 2 .no,
    opRow 0x30#8 .bmi .relative 1 .ifTaken,
    opRow 0x31#8 .and .indirectY 1 .no,
    opRow 0x35#8 .and .zeroPageX 1 .no,
    opRow 0x36#8 .rol .zeroPageX 1 .no,
    opRow 0x38#8 .sec .implied 0 .no,
    opRow 0x39#8 .and .absoluteY 2 .no,
    opRow 0x3D#8 .and .absoluteX 2 .no,
    opRow 0x3E#8 .rol .absoluteX 2 .no ]

/-- R54, opcodes 0x40 to 0x5F. -/
def opRows2 : List OpRow :=
  [ opRow 0x4A#8 .lsr .accumulator 0 .no,
    opRow 0x4C#8 .jmp .absolute 2 .yes ]

/-- R54, opcodes 0x60 to 0x7F. -/
def opRows3 : List OpRow :=
  [ opRow 0x60#8 .rts .implied 0 .yes,
    opRow 0x61#8 .adc .indirectX 1 .no,
    opRow 0x65#8 .adc .zeroPage 1 .no,
    opRow 0x69#8 .adc .immediate 1 .no,
    opRow 0x6D#8 .adc .absolute 2 .no,
    opRow 0x71#8 .adc .indirectY 1 .no,
    opRow 0x75#8 .adc .zeroPageX 1 .no,
    opRow 0x79#8 .adc .absoluteY 2 .no,
    opRow 0x7D#8 .adc .absoluteX 2 .no ]

/-- R54, opcodes 0x80 to 0x9F. -/
def opRows4 : List OpRow :=
  [ opRow 0x81#8 .sta .indirectX 1 .no,
    opRow 0x85#8 .sta .zeroPage 1 .no,
    opRow 0x8A#8 .txa .implied 0 .no,
    opRow 0x8D#8 .sta .absolute 2 .no,
    opRow 0x90#8 .bcc .relative 1 .ifTaken,
    opRow 0x91#8 .sta .indirectY 1 .no,
    opRow 0x95#8 .sta .zeroPageX 1 .no,
    opRow 0x99#8 .sta .absoluteY 2 .no,
    opRow 0x9D#8 .sta .absoluteX 2 .no ]

/-- R54, opcodes 0xA0 to 0xBF. -/
def opRows5 : List OpRow :=
  [ opRow 0xA0#8 .ldy .immediate 1 .no,
    opRow 0xA1#8 .lda .indirectX 1 .no,
    opRow 0xA2#8 .ldx .immediate 1 .no,
    opRow 0xA4#8 .ldy .zeroPage 1 .no,
    opRow 0xA5#8 .lda .zeroPage 1 .no,
    opRow 0xA6#8 .ldx .zeroPage 1 .no,
    opRow 0xA9#8 .lda .immediate 1 .no,
    opRow 0xAA#8 .tax .implied 0 .no,
    opRow 0xAC#8 .ldy .absolute 2 .no,
    opRow 0xAD#8 .lda .absolute 2 .no,
    opRow 0xAE#8 .ldx .absolute 2 .no,
    opRow 0xB0#8 .bcs .relative 1 .ifTaken,
    opRow 0xB1#8 .lda .indirectY 1 .no,
    opRow 0xB4#8 .ldy .zeroPageX 1 .no,
    opRow 0xB5#8 .lda .zeroPageX 1 .no,
    opRow 0xB6#8 .ldx .zeroPageY 1 .no,
    opRow 0xB9#8 .lda .absoluteY 2 .no,
    opRow 0xBC#8 .ldy .absoluteX 2 .no,
    opRow 0xBD#8 .lda .absoluteX 2 .no,
    opRow 0xBE#8 .ldx .absoluteY 2 .no ]

/-- R54, opcodes 0xC0 to 0xDF. -/
def opRows6 : List OpRow :=
  [ opRow 0xC0#8 .cpy .immediate 1 .no,
    opRow 0xC1#8 .cmp .indirectX 1 .no,
    opRow 0xC4#8 .cpy .zeroPage 1 .no,
    opRow 0xC5#8 .cmp .zeroPage 1 .no,
    opRow 0xC6#8 .dec .zeroPage 1 .no,
    opRow 0xC9#8 .cmp .immediate 1 .no,
    opRow 0xCA#8 .dex .implied 0 .no,
    opRow 0xCC#8 .cpy .absolute 2 .no,
    opRow 0xCD#8 .cmp .absolute 2 .no,
    opRow 0xCE#8 .dec .absolute 2 .no,
    opRow 0xD0#8 .bne .relative 1 .ifTaken,
    opRow 0xD1#8 .cmp .indirectY 1 .no,
    opRow 0xD5#8 .cmp .zeroPageX 1 .no,
    opRow 0xD6#8 .dec .zeroPageX 1 .no,
    opRow 0xD9#8 .cmp .absoluteY 2 .no,
    opRow 0xDD#8 .cmp .absoluteX 2 .no,
    opRow 0xDE#8 .dec .absoluteX 2 .no ]

/-- R54, opcodes 0xE0 to 0xFF. -/
def opRows7 : List OpRow :=
  [ opRow 0xE0#8 .cpx .immediate 1 .no,
    opRow 0xE4#8 .cpx .zeroPage 1 .no,
    opRow 0xE6#8 .inc .zeroPage 1 .no,
    opRow 0xE8#8 .inx .implied 0 .no,
    opRow 0xEA#8 .nop .implied 0 .no,
    opRow 0xEC#8 .cpx .absolute 2 .no,
    opRow 0xEE#8 .inc .absolute 2 .no,
    opRow 0xF0#8 .beq .relative 1 .ifTaken,
    opRow 0xF6#8 .inc .zeroPageX 1 .no,
    opRow 0xFE#8 .inc .absoluteX 2 .no ]

/-- The 102 rows of the default dispatch table (R54). -/
def opRows : List OpRow :=
  opRows0 ++ opRows1 ++ opRows2 ++ opRows3 ++ opRows4 ++ opRows5 ++ opRows6 ++ opRows7

/-- `OPTABLE`: opcode byte to descriptor, or absent (R53; R57: an absent byte is an illegal opcode). -/
def opTable (b : Byte) : Option Descriptor := (opRows.find? (fun r => r.opcode == b)).map OpRow.entry

/-- The instruction of a table entry with its operand bytes b1, b2 (R55); none for a pair of mnemonic and mode
that R54 does not list. -/
def buildInstr (h : Handler) (m : Mode) (b1 b2 : Byte) : Option Instr :=
  match h, m with
  | .lda, .immediate => some (.ldaImm b1)
  | .lda, .zeroPage => some (.ldaZp b1)
  | .lda, .zeroPageX => some (.ldaZpX b1)
  | .lda, .absolute => some (.ldaAbs (joinBytes b2 b1))
  | .lda, .absoluteX => some (.ldaAbsX (joinBytes b2 b1))
  | .lda, .absoluteY => some (.ldaAbsY (joinBytes b2 b1))
  | .lda, .indirectX => some (.ldaIndX b1)
  | .lda, .indirectY => some (.ldaIndY b1)
  | .ldx, .immediate => some (.ldxImm b1)
  | .ldx, .zeroPage => some (.ldxZp b1)
  | .ldx, .zeroPageY => some (.ldxZpY b1)
  | .ldx, .absolute => some (.ldxAbs (joinBytes b2 b1))
  | .ldx, .absoluteY => some (.ldxAbsY (joinBytes b2 b1))
  | .ldy, .immediate => some (.ldyImm b1)
  | .ldy, .zeroPage => some (.ldyZp b1)
  | .ldy, .zeroPageX => some (.ldyZpX b1)
  | .ldy, .absolute => some (.ldyAbs (joinBytes b2 b1))
  | .ldy, .absoluteX => some (.ldyAbsX (joinBytes b2 b1))
  | .sta, .zeroPage => some (.staZp b1)
  | .sta, .zeroPageX => some (.staZpX b1)
  | .sta, .absolute => some (.staAbs (joinBytes b2 b1))
  | .sta, .absoluteX => some (.staAbsX (joinBytes b2 b1))
  | .sta, .absoluteY => some (.staAbsY (joinBytes b2 b1))
  | .sta, .indirectX => some (.staIndX b1)
  | .sta, .indirectY => some (.staIndY b1)
  | .tax, .implied => some .tax
  | .txa, .implied => some .txa
  | .adc, .immediate => some (.adcImm b1)
  | .adc, .zeroPage => some (.adcZp b1)
  | .adc, .zeroPageX => some (.adcZpX b1)
  | .adc, .absolute => some (.adcAbs (joinBytes b2 b1))
  | .adc, .absoluteX => some (.adcAbsX (joinBytes b2 b1))
  | .adc, .absoluteY => some (.adcAbsY (joinBytes b2 b1))
  | .adc, .indirectX => some (.adcIndX b1)
  | .adc, .indirectY => some (.adcIndY b1)
  | .and, .immediate => some (.andImm b1)
  | .and, .zeroPage => some (.andZp b1)
  | .and, .zeroPageX => some (.andZpX b1)
  | .and, .absolute => some (.andAbs (joinBytes b2 b1))
  | .and, .absoluteX => some (.andAbsX (joinBytes b2 b1))
  | .and, .absoluteY => some (.andAbsY (joinBytes b2 b1))
  | .and, .indirectX => some (.andIndX b1)
  | .and, .indirectY => some (.andIndY b1)
  | .ora, .immediate => some (.oraImm b1)
  | .ora, .zeroPage => some (.oraZp b1)
  | .ora, .zeroPageX => some (.oraZpX b1)
  | .ora, .absolute => some (.oraAbs (joinBytes b2 b1))
  | .ora, .absoluteX => some (.oraAbsX (joinBytes b2 b1))
  | .ora, .absoluteY => some (.oraAbsY (joinBytes b2 b1))
  | .ora, .indirectX => some (.oraIndX b1)
  | .ora, .indirectY => some (.oraIndY b1)
  | .asl, .accumulator => some .aslAcc
  | .asl, .zeroPage => some (.aslZp b1)
  | .asl, .zeroPageX => some (.aslZpX b1)
  | .asl, .absolute => some (.aslAbs (joinBytes b2 b1))
  | .asl, .absoluteX => some (.aslAbsX (joinBytes b2 b1))
  | .rol, .accumulator => some .rolAcc
  | .rol, .zeroPage => some (.rolZp b1)
  | .rol, .zeroPageX => some (.rolZpX b1)
  | .rol, .absolute => some (.rolAbs (joinBytes b2 b1))
  | .rol, .absoluteX => some (.rolAbsX (joinBytes b2 b1))
  | .lsr, .accumulator => some .lsrAcc
  | .inx, .implied => some .inx
  | .dex, .implied => some .dex
  | .inc, .zeroPage => some (.incZp b1)
  | .inc, .zeroPageX => some (.incZpX b1)
  | .inc, .absolute => some (.incAbs (joinBytes b2 b1))
  | .inc, .absoluteX => some (.incAbsX (joinBytes b2 b1))
  | .dec, .zeroPage => some (.decZp b1)
  | .dec, .zeroPageX => some (.decZpX b1)
  | .dec, .absolute => some (.decAbs (joinBytes b2 b1))
  | .dec, .absoluteX => some (.decAbsX (joinBytes b2 b1))
  | .cmp, .immediate => some (.cmpImm b1)
  | .cmp, .zeroPage => some (.cmpZp b1)
  | .cmp, .zeroPageX => some (.cmpZpX b1)
  | .cmp, .absolute => some (.cmpAbs (joinBytes b2 b1))
  | .cmp, .absoluteX => some (.cmpAbsX (joinBytes b2 b1))
  | .cmp, .absoluteY => some (.cmpAbsY (joinBytes b2 b1))
  | .cmp, .indirectX => some (.cmpIndX b1)
  | .cmp, .indirectY => some (.cmpIndY b1)
  | .cpx, .immediate => some (.cpxImm b1)
  | .cpx, .zeroPage => some (.cpxZp b1)
  | .cpx, .absolute => some (.cpxAbs (joinBytes b2 b1))
  | .cpy, .immediate => some (.cpyImm b1)
  | .cpy, .zeroPage => some (.cpyZp b1)
  | .cpy, .absolute => some (.cpyAbs (joinBytes b2 b1))
  | .bit, .zeroPage => some (.bitZp b1)
  | .bit, .absolute => some (.bitAbs (joinBytes b2 b1))
  | .sec, .implied => some .sec
  | .clc, .implied => some .clc
  | .bcc, .relative => some (.bcc b1)
  | .bcs, .relative => some (.bcs b1)
  | .beq, .relative => some (.beq b1)
  | .bne, .relative => some (.bne b1)
  | .bmi, .relative => some (.bmi b1)
  | .bpl, .relative => some (.bpl b1)
  | .jmp, .absolute => some (.jmpAbs (joinBytes b2 b1))
  | .jsr, .absolute => some (.jsrAbs (joinBytes b2 b1))
  | .rts, .implied => some .rts
  | .php, .implied => some .php
  | .nop, .implied => some .nop
  | .halt, .implied => some .halt
  | _, _ => none

/-- Why a sequence of bytes is no instruction. -/
inductive Reject where
  /-- The first byte is absent from the dispatch table (R57). -/
  | illegalOpcode (b : Byte)
  /-- The bytes end before the instruction does; the machine's fetch never runs into this. -/
  | truncated
  deriving DecidableEq, Repr

/-- The instruction a descriptor and its operand bytes give, with the bytes left over. -/
def decodeEntry (opcode : Byte) (h : Handler) (m : Mode) (b1 b2 : Byte) (rest : List Byte) :
    Except Reject (Instr × List Byte) :=
  match buildInstr h m b1 b2 with
  | some i => .ok (i, rest)
  | none => .error (.illegalOpcode opcode)

/-- The decoder (R50, R53, R55): the whole opcode byte is looked up, and the entry it selects says how many operand
bytes follow. Answers the instruction and the bytes after it, or says why there is none. -/
def decode : List Byte → Except Reject (Instr × List Byte)
  | [] => .error .truncated
  | opcode :: bytes =>
    match opTable opcode with
    | none => .error (.illegalOpcode opcode)
    | some e =>
      match e.operandLength, bytes with
      | 0, rest => decodeEntry opcode e.handler e.mode 0 0 rest
      | 1, b1 :: rest => decodeEntry opcode e.handler e.mode b1 0 rest
      | 2, b1 :: b2 :: rest => decodeEntry opcode e.handler e.mode b1 b2 rest
      | _, _ => .error .truncated

/-- The bytes of an instruction, at ascending addresses (R50; the opcode from R54's table by mnemonic). -/
def encode : Instr → List Byte
  | .ldaImm d => [0xA9#8, d]
  | .ldaZp d => [0xA5#8, d]
  | .ldaZpX d => [0xB5#8, d]
  | .ldaAbs a => [0xAD#8, loByte a, hiByte a]
  | .ldaAbsX a => [0xBD#8, loByte a, hiByte a]
  | .ldaAbsY a => [0xB9#8, loByte a, hiByte a]
  | .ldaIndX d => [0xA1#8, d]
  | .ldaIndY d => [0xB1#8, d]
  | .ldxImm d => [0xA2#8, d]
  | .ldxZp d => [0xA6#8, d]
  | .ldxZpY d => [0xB6#8, d]
  | .ldxAbs a => [0xAE#8, loByte a, hiByte a]
  | .ldxAbsY a => [0xBE#8, loByte a, hiByte a]
  | .ldyImm d => [0xA0#8, d]
  | .ldyZp d => [0xA4#8, d]
  | .ldyZpX d => [0xB4#8, d]
  | .ldyAbs a => [0xAC#8, loByte a, hiByte a]
  | .ldyAbsX a => [0xBC#8, loByte a, hiByte a]
  | .staZp d => [0x85#8, d]
  | .staZpX d => [0x95#8, d]
  | .staAbs a => [0x8D#8, loByte a, hiByte a]
  | .staAbsX a => [0x9D#8, loByte a, hiByte a]
  | .staAbsY a => [0x99#8, loByte a, hiByte a]
  | .staIndX d => [0x81#8, d]
  | .staIndY d => [0x91#8, d]
  | .tax => [0xAA#8]
  | .txa => [0x8A#8]
  | .adcImm d => [0x69#8, d]
  | .adcZp d => [0x65#8, d]
  | .adcZpX d => [0x75#8, d]
  | .adcAbs a => [0x6D#8, loByte a, hiByte a]
  | .adcAbsX a => [0x7D#8, loByte a, hiByte a]
  | .adcAbsY a => [0x79#8, loByte a, hiByte a]
  | .adcIndX d => [0x61#8, d]
  | .adcIndY d => [0x71#8, d]
  | .andImm d => [0x29#8, d]
  | .andZp d => [0x25#8, d]
  | .andZpX d => [0x35#8, d]
  | .andAbs a => [0x2D#8, loByte a, hiByte a]
  | .andAbsX a => [0x3D#8, loByte a, hiByte a]
  | .andAbsY a => [0x39#8, loByte a, hiByte a]
  | .andIndX d => [0x21#8, d]
  | .andIndY d => [0x31#8, d]
  | .oraImm d => [0x09#8, d]
  | .oraZp d => [0x05#8, d]
  | .oraZpX d => [0x15#8, d]
  | .oraAbs a => [0x0D#8, loByte a, hiByte a]
  | .oraAbsX a => [0x1D#8, loByte a, hiByte a]
  | .oraAbsY a => [0x19#8, loByte a, hiByte a]
  | .oraIndX d => [0x01#8, d]
  | .oraIndY d => [0x11#8, d]
  | .aslAcc => [0x0A#8]
  | .aslZp d => [0x06#8, d]
  | .aslZpX d => [0x16#8, d]
  | .aslAbs a => [0x0E#8, loByte a, hiByte a]
  | .aslAbsX a => [0x1E#8, loByte a, hiByte a]
  | .rolAcc => [0x2A#8]
  | .rolZp d => [0x26#8, d]
  | .rolZpX d => [0x36#8, d]
  | .rolAbs a => [0x2E#8, loByte a, hiByte a]
  | .rolAbsX a => [0x3E#8, loByte a, hiByte a]
  | .lsrAcc => [0x4A#8]
  | .inx => [0xE8#8]
  | .dex => [0xCA#8]
  | .incZp d => [0xE6#8, d]
  | .incZpX d => [0xF6#8, d]
  | .incAbs a => [0xEE#8, loByte a, hiByte a]
  | .incAbsX a => [0xFE#8, loByte a, hiByte a]
  | .decZp d => [0xC6#8, d]
  | .decZpX d => [0xD6#8, d]
  | .decAbs a => [0xCE#8, loByte a, hiByte a]
  | .decAbsX a => [0xDE#8, loByte a, hiByte a]
  | .cmpImm d => [0xC9#8, d]
  | .cmpZp d => [0xC5#8, d]
  | .cmpZpX d => [0xD5#8, d]
  | .cmpAbs a => [0xCD#8, loByte a, hiByte a]
  | .cmpAbsX a => [0xDD#8, loByte a, hiByte a]
  | .cmpAbsY a => [0xD9#8, loByte a, hiByte a]
  | .cmpIndX d => [0xC1#8, d]
  | .cmpIndY d => [0xD1#8, d]
  | .cpxImm d => [0xE0#8, d]
  | .cpxZp d => [0xE4#8, d]
  | .cpxAbs a => [0xEC#8, loByte a, hiByte a]
  | .cpyImm d => [0xC0#8, d]
  | .cpyZp d => [0xC4#8, d]
  | .cpyAbs a => [0xCC#8, loByte a, hiByte a]
  | .bitZp d => [0x24#8, d]
  | .bitAbs a => [0x2C#8, loByte a, hiByte a]
  | .sec => [0x38#8]
  | .clc => [0x18#8]
  | .bcc r => [0x90#8, r]
  | .bcs r => [0xB0#8, r]
  | .beq r => [0xF0#8, r]
  | .bne r => [0xD0#8, r]
  | .bmi r => [0x30#8, r]
  | .bpl r => [0x10#8, r]
  | .jmpAbs a => [0x4C#8, loByte a, hiByte a]
  | .jsrAbs a => [0x20#8, loByte a, hiByte a]
  | .rts => [0x60#8]
  | .php => [0x08#8]
  | .nop => [0xEA#8]
  | .halt => [0x00#8]

/-- The three bytes a table word of nbits bits stands for, bits above nbits zero, the first byte lowest. -/
def tableWordBytes (nbits w : Nat) : List Byte :=
  let v := w % 2 ^ nbits
  [BitVec.ofNat 8 v, BitVec.ofNat 8 (v / 256), BitVec.ofNat 8 (v / 65536)]

/-- What the decoder reads from a word numbered as spec/opcode_table.json numbers it: the second byte is bits 15 to 8,
the third bits 23 to 16. -/
def decodeTableWord (nbits w : Nat) : Option Instr :=
  match decode (tableWordBytes nbits w) with
  | .ok (i, _) => some i
  | .error _ => none

end Sys2Proof
end

