-- ==== Sys2Proof/Machine/State.lean ====
section
/-! DEFINITION. The state of the machine (10_state.md R10, R20), why a step may have no successor, and the state after
power-on and reset() (R22, R190). -/

namespace Sys2Proof.Machine

/-- Memory: 65536 cells of 8 bits (R19, R30), as the rising list of the cells that are not zero. A cell that is not
listed reads as 0x00, what power-on puts in every cell (R190). -/
abbrev Memory := List Host.Cell

/-- The two fatal outcomes (60_exceptions.md R170 to R172), which `run_state` carries. -/
inductive FatalReason where
  /-- The fetched byte is absent from the dispatch table (R171). -/
  | illegalOpcode (b : Byte)
  /-- A handler that needs a memory operand was given NoneAddressing (R172). -/
  | invalidAddressingMode
  deriving DecidableEq, Repr

/-- The dispatcher's state (R20). -/
inductive RunState where
  | running
  | halted
  | faulted (reason : FatalReason)
  deriving DecidableEq, Repr

/-- Everything the spec gives the machine (R10): "There is no other state". -/
structure State where
  /-- The accumulator (R11). -/
  a        : Byte
  /-- Index register X (R12). -/
  x        : Byte
  /-- Index register Y (R12). -/
  y        : Byte
  /-- The stack pointer, the low byte of the next free stack cell (R13). -/
  sp       : Byte
  /-- The program counter (R14). -/
  pc       : Word
  /-- The status byte, eight flags (R15). -/
  p        : Byte
  /-- Memory (R19). -/
  mem      : Memory
  /-- Running, Halted or Faulted (R20). -/
  runState : RunState
  deriving DecidableEq, Repr

/-- Why the machine has no next step. -/
inductive Fault where
  /-- Raised by step on a core that is Halted: "no step exists" (R20, R194; 93 U4). Safe: the machine stops. -/
  | coreHalted
  /-- Raised by step on a core that is Faulted, with the reason it faulted for: "no step exists" (R20, R178; 93 U3,
  U4). Safe: the machine stops. -/
  | coreFaulted (reason : FatalReason)
  deriving DecidableEq, Repr

/-- What the model declines. -/
inductive Refusal where
  /-- Raised by an arm of exec whose instruction has no meaning yet; no arm does. Safe: the machine stops. -/
  | notModelled (mnemonic : String)
  /-- Raised by the host operation load() on an image of n bytes that does not fit above the load base: refused,
  nothing is written (70_reset_and_hazards.md R192, D17). No instruction and no step raises it. Safe. -/
  | imageTooLong (n : Nat)
  deriving DecidableEq, Repr

/-- What a step or an instruction answers. -/
abbrev Result := Host.Outcome State Fault Refusal

/-- Power-on (R190), which is also the state reset() then leaves (R191), for the reset vector reads 0x0000: every
register zero but SP and P, memory zero-filled, Running. -/
def State.reset : State :=
  { a := 0x00#8, x := 0x00#8, y := 0x00#8, sp := Config.spReset, pc := 0x0000#16, p := Config.pReset, mem := [],
    runState := .running }

end Sys2Proof.Machine
end

