-- ==== Sys2Proof/Machine/Ops.lean ====
section
/-! DEFINITION. The named operations over memory and registers: byte and word access (20_memory.md R31 to R34), the
stack primitives (40_dispatch_and_addressing.md R86 to R90), the sequencer that advances PC (R70, R71), and how a fatal
outcome and a halt leave the machine and reset() brings it back (60_exceptions.md R171, R172, R177, R178). -/

namespace Sys2Proof.Machine

/-! ### Memory as a list -/

/-- What a cell that is not listed reads as: memory is zero-filled at power-on (R190). -/
def Memory.blank : Byte := 0x00#8

/-- The byte in cell a. -/
def Memory.read : Memory → Nat → Byte
  | [], _ => Memory.blank
  | (k, v) :: m, a => if k = a then v else Memory.read m a

/-- The memory without an entry for cell a. -/
def Memory.erase (m : Memory) (a : Nat) : Memory := m.filter (fun c => decide (c.1 ≠ a))

/-- The memory with an entry put before the first one at a higher address. -/
def Memory.insert : Memory → Nat → Byte → Memory
  | [], a, v => [(a, v)]
  | (k, w) :: m, a, v => if a < k then (a, v) :: (k, w) :: m else (k, w) :: Memory.insert m a v

/-- Cell a set to v; a cell set to what an unlisted one reads as is no longer listed. -/
def Memory.write (m : Memory) (a : Nat) (v : Byte) : Memory :=
  if v = Memory.blank then m.erase a else (m.erase a).insert a v

/-- The canonical form above address lo: addresses rise strictly and lie in the address space, and no entry equals what
an unlisted cell reads as. -/
def Memory.wfFrom : Nat → Memory → Bool
  | _, [] => true
  | lo, (k, v) :: m => decide (lo ≤ k) && decide (k < Config.memSize) && decide (v ≠ Memory.blank) && wfFrom (k + 1) m

/-- The canonical form of memory: equal contents are equal lists. -/
def Memory.wf (m : Memory) : Bool := Memory.wfFrom 0 m

/-! ### Access through the state -/

/-- `MemRead(addr, 1)` (R31). -/
def State.read8 (s : State) (addr : Word) : Byte := Memory.read s.mem addr.toNat

/-- `MemWrite(addr, 1, v)` (R32). -/
def State.write8 (s : State) (addr : Word) (v : Byte) : State := { s with mem := Memory.write s.mem addr.toNat v }

/-- `MemRead(addr, 2)`, little-endian, addr + 1 taken mod 65536 (R33, D10). -/
def State.read16 (s : State) (addr : Word) : Word := joinBytes (s.read8 (addr + 1#16)) (s.read8 addr)

/-- `MemWrite(addr, 2, v)`: the low byte at addr, then the high byte at addr + 1 (R34). -/
def State.write16 (s : State) (addr : Word) (v : Word) : State :=
  (s.write8 addr (loByte v)).write8 (addr + 1#16) (hiByte v)

/-- The registers that 00_scope.md section 5 writes as `reg[r]`. -/
inductive Reg where
  | a | x | y
  deriving DecidableEq, Repr

/-- `reg[r]`. -/
def State.reg (s : State) : Reg → Byte
  | .a => s.a
  | .x => s.x
  | .y => s.y

/-- `reg[r] <- v`. -/
def State.setReg (s : State) (r : Reg) (v : Byte) : State :=
  match r with
  | .a => { s with a := v }
  | .x => { s with x := v }
  | .y => { s with y := v }

/-- `SP <- v`. -/
def State.setSp (s : State) (v : Byte) : State := { s with sp := v }

/-- `PC <- t`. -/
def State.setPc (s : State) (t : Word) : State := { s with pc := t }

/-- `P <- v`. -/
def State.setP (s : State) (v : Byte) : State := { s with p := v }

/-! ### The stack (R86 to R90) -/

/-- The address of the stack cell SP designates: `STACK + SP` (R90). -/
def stackAddr (sp : Byte) : Word := Config.stackBase + sp.setWidth 16

/-- `Push8(v)`: write at STACK + SP, then decrement SP mod 256 (R86). -/
def State.push8 (s : State) (v : Byte) : State := (s.write8 (stackAddr s.sp) v).setSp (s.sp - 1#8)

/-- `Pop8()`: increment SP mod 256, then read at STACK + SP (R87). The cell is not cleared. -/
def State.pop8 (s : State) : Byte × State := (s.read8 (stackAddr (s.sp + 1#8)), s.setSp (s.sp + 1#8))

/-- `Push16(w)`: the high byte first, then the low byte (R88). -/
def State.push16 (s : State) (w : Word) : State := (s.push8 (hiByte w)).push8 (loByte w)

/-- `Pop16()`: the low byte first, then the high byte (R89). -/
def State.pop16 (s : State) : Word × State :=
  let lo := s.pop8
  let hi := lo.2.pop8
  (joinBytes hi.1 lo.1, hi.2)

/-! ### Stopping and starting again (R171, R172, R161, R191) -/

/-- A fatal outcome saves nothing and vectors nowhere (R177): `run_state` takes its reason, and nothing else changes.
PC stays where the dispatcher has moved it, past the opcode byte (R171, R172; D13, log entry 2). -/
def State.fatal (s : State) (r : FatalReason) : State := { s with runState := .faulted r }

/-- `run_state <- Halted` and nothing else (R161). -/
def State.halt (s : State) : State := { s with runState := .halted }

/-- `reset()`, the one way out of Halted and Faulted besides power-on (R178, R191): A and X are zeroed, Y is not
written (D11), SP and P take their reset values, PC comes from the reset vector, and memory is untouched. -/
def State.hostReset (s : State) : State :=
  { s with a := 0x00#8, x := 0x00#8, sp := Config.spReset, p := Config.pReset, pc := s.read16 Config.resetVector,
           runState := .running }

/-! ### The sequencer (R70, R71) -/

/-- How a handler ends. The marker `pc_written` of R70 is which constructor it ends with: it is set by the act of
writing PC, and lives only inside one step (R21, R71). -/
inductive Handled where
  /-- The handler has run and has not written PC. -/
  | ran (t : State)
  /-- The handler has run and has written PC. -/
  | wrotePc (t : State)
  /-- The handler called the resolver with NoneAddressing, before its first write (R82, R172). -/
  | noAddress

/-- What the dispatcher does after the handler (R70), s being the state the handler was called in, where PC is the
address of the first operand byte: it adds the operand length exactly when the handler has not written PC. -/
def sequence (len : Nat) (s : State) (h : Handled) : Result :=
  match h with
  | .ran t => .next (t.setPc (s.pc + BitVec.ofNat 16 len))
  | .wrotePc t => .next t
  | .noAddress => .next (s.fatal .invalidAddressingMode)

end Sys2Proof.Machine
end

