-- ==== Sys2Proof/Machine/Flags.lean ====
section
/-! DEFINITION. The status byte (10_state.md R15) and every flag computation the spec gives: the shared zero/negative
rule (R17), the carry and overflow of ADC (42_arithmetic_logic.md R110), the high-bit carry of the shifts
(43_shift_rotate.md), the carry of the compares and the flags of BIT (44_incdec_compare_bit.md R137, R138). -/

namespace Sys2Proof.Machine

/-- The eight named flags of P (R15). -/
inductive Flag where
  | c | z | i | d | b | b2 | v | n
  deriving DecidableEq, Repr

/-- `FLAG_BIT`: the bit of P that holds each flag (R15; the spec's decision D4, log entry 6). -/
def flagBit : Flag → Nat
  | .c => 0
  | .z => 1
  | .i => 2
  | .d => 3
  | .b => 4
  | .b2 => 5
  | .v => 6
  | .n => 7

/-- The byte whose one bit is the flag's. -/
def flagMask (f : Flag) : Byte := 1#8 <<< flagBit f

/-- The value of a flag in a status byte. -/
def getFlag (p : Byte) (f : Flag) : Bool := p.getLsbD (flagBit f)

/-- The status byte with one flag set to a value, the other seven kept. -/
def putFlag (p : Byte) (f : Flag) (value : Bool) : Byte :=
  if value then p ||| flagMask f else p &&& ~~~(flagMask f)

/-- `P.f` in a state. -/
def State.flag (s : State) (f : Flag) : Bool := getFlag s.p f

/-- `P.f <- value`. -/
def State.setFlag (s : State) (f : Flag) (value : Bool) : State := s.setP (putFlag s.p f value)

/-- Bit 7 of a byte: what Negative is, and the carry of ASL, ROL and, on this machine, LSR (R120, R122, R124). -/
def highBit (v : Byte) : Bool := v.getLsbD 7

/-- The shared zero/negative rule `SetZN(v)` (R17). -/
def State.setZN (s : State) (v : Byte) : State := (s.setFlag .z (v == 0#8)).setFlag .n (highBit v)

/-- A flag as the number 0 or 1. -/
def bitValue (b : Bool) : Nat := if b then 1 else 0

/-- The sum of ADC, in a widened integer, 0 to 511 (R110). -/
def adcSum (a v : Byte) (carry : Bool) : Nat := a.toNat + v.toNat + bitValue carry

/-- The result of ADC: the sum truncated to 8 bits (R110). -/
def adcResult (a v : Byte) (carry : Bool) : Byte := BitVec.ofNat 8 (adcSum a v carry)

/-- Carry of ADC: `sum > 255` (R110). -/
def adcCarry (a v : Byte) (carry : Bool) : Bool := decide (adcSum a v carry > 255)

/-- Overflow of ADC, with the accumulator before it is overwritten (R110). -/
def adcOverflow (a v result : Byte) : Bool := ((v ^^^ result) &&& (result ^^^ a) &&& 0x80#8) != 0#8

/-- `(v << 1) mod 256` (R120, R121). -/
def aslResult (v : Byte) : Byte := v <<< 1

/-- `((v << 1) | c_old) mod 256` (R122, R123). -/
def rolResult (v : Byte) (carry : Bool) : Byte := (v <<< 1) ||| BitVec.ofNat 8 (bitValue carry)

/-- `v / 2` (R124). -/
def lsrResult (v : Byte) : Byte := v / 2#8

/-- Carry of the compares: operand ≤ register, as unsigned bytes (R138; 90_conflicts.md C1). -/
def compareCarry (register operand : Byte) : Bool := decide (operand ≤ register)

end Sys2Proof.Machine
end

