-- ==== Sys2Proof/Machine/Operands.lean ====
section
/-! DEFINITION. The addressing resolver (40_dispatch_and_addressing.md R75 to R85) and the shapes an instruction's
meaning takes. A step reads an instruction's operand bytes before it writes anything, JSR apart (20_memory.md R42, R44),
so a meaning is given the operand the decoder assembled; Machine/Loop.lean has the resolver that reads the operand bytes
at PC, as R75 to R82 write it (log entry 3). -/

namespace Sys2Proof.Machine

/-- A mode tag of the resolver (30_encoding.md R52) with the operand value assembled for it (R55). -/
inductive AddrMode where
  | immediate (d : Byte)
  | zeroPage (d : Byte)
  | zeroPageX (d : Byte)
  | zeroPageY (d : Byte)
  | absolute (a : Word)
  | absoluteX (a : Word)
  | absoluteY (a : Word)
  | indirectX (d : Byte)
  | indirectY (d : Byte)
  | noneAddressing
  deriving DecidableEq, Repr

/-- Operand bytes of each mode (30_encoding.md R51). -/
def addrModeLength : AddrMode → Nat
  | .immediate _ | .zeroPage _ | .zeroPageX _ | .zeroPageY _ | .indirectX _ | .indirectY _ => 1
  | .absolute _ | .absoluteX _ | .absoluteY _ => 2
  | .noneAddressing => 0

/-- `zext_16(b)` (00_scope.md section 5). -/
def zext16 (b : Byte) : Word := b.setWidth 16

/-- `sext_16(b)` (00_scope.md section 5). -/
def sext16 (b : Byte) : Word := b.signExtend 16

/-- The word a zero-page pointer designates: low byte at ptr, high byte at (ptr + 1) mod 256 (R80). -/
def zeroPageWord (ptr : Byte) (s : State) : Word := joinBytes (s.read8 (zext16 (ptr + 1#8))) (s.read8 (zext16 ptr))

/-- The base address of mode IndirectY: the high byte wraps within page 0 when INDY_PTR_WRAP holds, and otherwise
comes from ptr + 1 (R81, D9). -/
def indirectYBase (ptr : Byte) (s : State) : Word :=
  if Config.indyPtrWrap then zeroPageWord ptr s else s.read16 (zext16 ptr)

/-- The effective address (R75 to R82), none for NoneAddressing. PC is the address of the first operand byte. -/
def ea (m : AddrMode) (s : State) : Option Word :=
  match m with
  | .immediate _ => some s.pc
  | .zeroPage d => some (zext16 d)
  | .zeroPageX d => some (zext16 (d + s.x))
  | .zeroPageY d => some (zext16 (d + s.y))
  | .absolute a => some a
  | .absoluteX a => some (a + zext16 s.x)
  | .absoluteY a => some (a + zext16 s.y)
  | .indirectX d => some (zeroPageWord (d + s.x) s)
  | .indirectY d => some (indirectYBase d s + zext16 s.y)
  | .noneAddressing => none

/-- `Operand(mode)`: the byte at the effective address (R84); for Immediate, the operand byte itself (R55, R75). -/
def operandByte (m : AddrMode) (s : State) : Option Byte :=
  match m with
  | .immediate d => some d
  | .zeroPage _ | .zeroPageX _ | .zeroPageY _ | .absolute _ | .absoluteX _ | .absoluteY _ | .indirectX _ | .indirectY _
  | .noneAddressing => (ea m s).map s.read8

/-! ### Shapes of a meaning -/

/-- A handler that reads one operand byte and writes registers or flags (R84): `effect v s` is the state it leaves. -/
def readForm (m : AddrMode) (effect : Byte → State → State) (s : State) : Result :=
  sequence (addrModeLength m) s <|
    match operandByte m s with
    | some v => .ran (effect v s)
    | none => .noAddress

/-- A handler that writes one byte, a value of the state, at the effective address, and does not read the cell
(R84, R103). -/
def storeForm (m : AddrMode) (value : State → Byte) (s : State) : Result :=
  sequence (addrModeLength m) s <|
    match ea m s with
    | some addr => .ran (s.write8 addr (value s))
    | none => .noAddress

/-- A read-modify-write handler (R84; 20_memory.md R44): one effective address, one read, one write of `result v s`,
and the flags `flags v s` leaves, all from the old value v and the old state. -/
def modifyForm (m : AddrMode) (result : Byte → State → Byte) (flags : Byte → State → State) (s : State) : Result :=
  sequence (addrModeLength m) s <|
    match ea m s with
    | some addr => .ran ((flags (s.read8 addr) s).write8 addr (result (s.read8 addr) s))
    | none => .noAddress

/-- The accumulator form of a shift or rotate: A is source and destination (R85). -/
def accumulatorForm (result : Byte → State → Byte) (flags : Byte → State → State) (s : State) : Result :=
  sequence 0 s (.ran ((flags s.a s).setReg .a (result s.a s)))

/-- An implied handler that does not write PC (R85). -/
def impliedForm (effect : State → State) (s : State) : Result := sequence 0 s (.ran (effect s))

/-- The common branch rule (45_flags_branch.md R142): taken, the handler writes PC; not taken, it does nothing. -/
def branchHandled (taken : Bool) (r : Byte) (s : State) : Handled :=
  if taken then .wrotePc (s.setPc (s.pc + 1#16 + sext16 r)) else .ran s

/-- A branch on one condition, with its one offset byte (R142). -/
def branchForm (condition : State → Bool) (r : Byte) (s : State) : Result :=
  sequence 1 s (branchHandled (condition s) r s)

end Sys2Proof.Machine
end

