-- ==== Sys2Proof/Machine/Arith.lean ====
section
/-! DEFINITION. Arithmetic and logic (42_arithmetic_logic.md): ADC, AND, ORA. -/

namespace Sys2Proof.Machine

/-- Add the byte and Carry to A, always in binary: DecimalMode is not read (R110, D24). -/
def addToA (v : Byte) (s : State) : State :=
  let carry := s.flag .c
  let result := adcResult s.a v carry
  (((s.setFlag .c (adcCarry s.a v carry)).setFlag .v (adcOverflow s.a v result)).setReg .a result).setZN result

/-- A and the byte, with the inline write of Zero that the source flags and then the shared rule (R111;
90_conflicts.md C3). -/
def andToA (v : Byte) (s : State) : State :=
  let result := s.a &&& v
  ((s.setReg .a result).setFlag .z (result == 0#8)).setZN result

/-- A or the byte, and the shared rule (R112). -/
def orToA (v : Byte) (s : State) : State := (s.setReg .a (s.a ||| v)).setZN (s.a ||| v)

/-- `ADC #d` (R110). -/
def execAdcImm (d : Byte) (s : State) : Result := readForm (.immediate d) addToA s

/-- `ADC d` (R110). -/
def execAdcZp (d : Byte) (s : State) : Result := readForm (.zeroPage d) addToA s

/-- `ADC d,X` (R110). -/
def execAdcZpX (d : Byte) (s : State) : Result := readForm (.zeroPageX d) addToA s

/-- `ADC a` (R110). -/
def execAdcAbs (a : Word) (s : State) : Result := readForm (.absolute a) addToA s

/-- `ADC a,X` (R110). -/
def execAdcAbsX (a : Word) (s : State) : Result := readForm (.absoluteX a) addToA s

/-- `ADC a,Y` (R110). -/
def execAdcAbsY (a : Word) (s : State) : Result := readForm (.absoluteY a) addToA s

/-- `ADC (d,X)` (R110). -/
def execAdcIndX (d : Byte) (s : State) : Result := readForm (.indirectX d) addToA s

/-- `ADC (d),Y` (R110). -/
def execAdcIndY (d : Byte) (s : State) : Result := readForm (.indirectY d) addToA s

/-- `AND #d` (R111). -/
def execAndImm (d : Byte) (s : State) : Result := readForm (.immediate d) andToA s

/-- `AND d` (R111). -/
def execAndZp (d : Byte) (s : State) : Result := readForm (.zeroPage d) andToA s

/-- `AND d,X` (R111). -/
def execAndZpX (d : Byte) (s : State) : Result := readForm (.zeroPageX d) andToA s

/-- `AND a` (R111). -/
def execAndAbs (a : Word) (s : State) : Result := readForm (.absolute a) andToA s

/-- `AND a,X` (R111). -/
def execAndAbsX (a : Word) (s : State) : Result := readForm (.absoluteX a) andToA s

/-- `AND a,Y` (R111). -/
def execAndAbsY (a : Word) (s : State) : Result := readForm (.absoluteY a) andToA s

/-- `AND (d,X)` (R111). -/
def execAndIndX (d : Byte) (s : State) : Result := readForm (.indirectX d) andToA s

/-- `AND (d),Y` (R111). -/
def execAndIndY (d : Byte) (s : State) : Result := readForm (.indirectY d) andToA s

/-- `ORA #d` (R112). -/
def execOraImm (d : Byte) (s : State) : Result := readForm (.immediate d) orToA s

/-- `ORA d` (R112). -/
def execOraZp (d : Byte) (s : State) : Result := readForm (.zeroPage d) orToA s

/-- `ORA d,X` (R112). -/
def execOraZpX (d : Byte) (s : State) : Result := readForm (.zeroPageX d) orToA s

/-- `ORA a` (R112). -/
def execOraAbs (a : Word) (s : State) : Result := readForm (.absolute a) orToA s

/-- `ORA a,X` (R112). -/
def execOraAbsX (a : Word) (s : State) : Result := readForm (.absoluteX a) orToA s

/-- `ORA a,Y` (R112). -/
def execOraAbsY (a : Word) (s : State) : Result := readForm (.absoluteY a) orToA s

/-- `ORA (d,X)` (R112). -/
def execOraIndX (d : Byte) (s : State) : Result := readForm (.indirectX d) orToA s

/-- `ORA (d),Y` (R112). -/
def execOraIndY (d : Byte) (s : State) : Result := readForm (.indirectY d) orToA s

end Sys2Proof.Machine
end

