-- ==== Sys2Proof/Machine/FlagsBranch.lean ====
section
/-! DEFINITION. Flag set and clear, and the conditional branches (45_flags_branch.md): SEC, CLC, BCC, BCS, BEQ, BNE, BMI, BPL.
The condition of each branch is the spec's decision D7 (log entry 9). -/

namespace Sys2Proof.Machine

/-- Carry set or cleared, nothing else (R140, R141). -/
def putCarry (value : Bool) (s : State) : State := s.setFlag .c value

/-- `P.C == 0` (R143). -/
def carryClear (s : State) : Bool := !s.flag .c

/-- `P.C == 1` (R144). -/
def carrySet (s : State) : Bool := s.flag .c

/-- `P.Z == 1` (R145). -/
def zeroSet (s : State) : Bool := s.flag .z

/-- `P.Z == 0` (R146). -/
def zeroClear (s : State) : Bool := !s.flag .z

/-- `P.N == 1` (R147). -/
def negativeSet (s : State) : Bool := s.flag .n

/-- `P.N == 0` (R148). -/
def negativeClear (s : State) : Bool := !s.flag .n

/-- `SEC` (R140). -/
def execSec (s : State) : Result := impliedForm (putCarry true) s

/-- `CLC` (R141). -/
def execClc (s : State) : Result := impliedForm (putCarry false) s

/-- `BCC *+2+r` (R143). -/
def execBcc (r : Byte) (s : State) : Result := branchForm carryClear r s

/-- `BCS *+2+r` (R144). -/
def execBcs (r : Byte) (s : State) : Result := branchForm carrySet r s

/-- `BEQ *+2+r` (R145). -/
def execBeq (r : Byte) (s : State) : Result := branchForm zeroSet r s

/-- `BNE *+2+r` (R146). -/
def execBne (r : Byte) (s : State) : Result := branchForm zeroClear r s

/-- `BMI *+2+r` (R147). -/
def execBmi (r : Byte) (s : State) : Result := branchForm negativeSet r s

/-- `BPL *+2+r` (R148). -/
def execBpl (r : Byte) (s : State) : Result := branchForm negativeClear r s

end Sys2Proof.Machine
end

