-- ==== Sys2Proof/Machine/IncDecCompare.lean ====
section
/-! DEFINITION. Increment, decrement, compare and bit test (44_incdec_compare_bit.md): INX, DEX, INC, DEC, CMP, CPX, CPY,
BIT. The compares and BIT are not the canonical 6502 ones (70_reset_and_hazards.md R197). -/

namespace Sys2Proof.Machine

/-- X + 1 mod 256, and the shared rule on the new X (R130). -/
def incX (s : State) : State := (s.setReg .x (s.x + 1#8)).setZN (s.x + 1#8)

/-- X - 1 mod 256, and the shared rule on the new X (R131). -/
def decX (s : State) : State := (s.setReg .x (s.x - 1#8)).setZN (s.x - 1#8)

/-- The byte INC writes back (R132). -/
def incByte (v : Byte) (_s : State) : Byte := v + 1#8

/-- The flags of INC: the shared rule on the new value (R132). -/
def incFlags (v : Byte) (s : State) : State := s.setZN (v + 1#8)

/-- The byte DEC writes back (R133). -/
def decByte (v : Byte) (_s : State) : Byte := v - 1#8

/-- The flags of DEC: the shared rule on the new value (R133). -/
def decFlags (v : Byte) (s : State) : State := s.setZN (v - 1#8)

/-- `Compare(r, m)` (R138): Carry when operand <= register, and the shared rule on register - 1, in which the operand
plays no part. The register is not written (D27). -/
def compareReg (r : Reg) (v : Byte) (s : State) : State :=
  (s.setFlag .c (compareCarry (s.reg r) v)).setZN (s.reg r - 1#8)

/-- The flags of BIT (R137): Zero when the masked value is NOT zero, Overflow and Negative from bits 6 and 7 of the
operand. -/
def bitTest (v : Byte) (s : State) : State :=
  ((s.setFlag .z ((s.a &&& v) != 0#8)).setFlag .v (v.getLsbD 6)).setFlag .n (v.getLsbD 7)

/-- `INX` (R130). -/
def execInx (s : State) : Result := impliedForm incX s

/-- `DEX` (R131). -/
def execDex (s : State) : Result := impliedForm decX s

/-- `INC d` (R132). -/
def execIncZp (d : Byte) (s : State) : Result := modifyForm (.zeroPage d) incByte incFlags s

/-- `INC d,X` (R132). -/
def execIncZpX (d : Byte) (s : State) : Result := modifyForm (.zeroPageX d) incByte incFlags s

/-- `INC a` (R132). -/
def execIncAbs (a : Word) (s : State) : Result := modifyForm (.absolute a) incByte incFlags s

/-- `INC a,X` (R132). -/
def execIncAbsX (a : Word) (s : State) : Result := modifyForm (.absoluteX a) incByte incFlags s

/-- `DEC d` (R133). -/
def execDecZp (d : Byte) (s : State) : Result := modifyForm (.zeroPage d) decByte decFlags s

/-- `DEC d,X` (R133). -/
def execDecZpX (d : Byte) (s : State) : Result := modifyForm (.zeroPageX d) decByte decFlags s

/-- `DEC a` (R133). -/
def execDecAbs (a : Word) (s : State) : Result := modifyForm (.absolute a) decByte decFlags s

/-- `DEC a,X` (R133). -/
def execDecAbsX (a : Word) (s : State) : Result := modifyForm (.absoluteX a) decByte decFlags s

/-- `CMP #d` (R134). -/
def execCmpImm (d : Byte) (s : State) : Result := readForm (.immediate d) (compareReg .a) s

/-- `CMP d` (R134). -/
def execCmpZp (d : Byte) (s : State) : Result := readForm (.zeroPage d) (compareReg .a) s

/-- `CMP d,X` (R134). -/
def execCmpZpX (d : Byte) (s : State) : Result := readForm (.zeroPageX d) (compareReg .a) s

/-- `CMP a` (R134). -/
def execCmpAbs (a : Word) (s : State) : Result := readForm (.absolute a) (compareReg .a) s

/-- `CMP a,X` (R134). -/
def execCmpAbsX (a : Word) (s : State) : Result := readForm (.absoluteX a) (compareReg .a) s

/-- `CMP a,Y` (R134). -/
def execCmpAbsY (a : Word) (s : State) : Result := readForm (.absoluteY a) (compareReg .a) s

/-- `CMP (d,X)` (R134). -/
def execCmpIndX (d : Byte) (s : State) : Result := readForm (.indirectX d) (compareReg .a) s

/-- `CMP (d),Y` (R134). -/
def execCmpIndY (d : Byte) (s : State) : Result := readForm (.indirectY d) (compareReg .a) s

/-- `CPX #d` (R135). -/
def execCpxImm (d : Byte) (s : State) : Result := readForm (.immediate d) (compareReg .x) s

/-- `CPX d` (R135). -/
def execCpxZp (d : Byte) (s : State) : Result := readForm (.zeroPage d) (compareReg .x) s

/-- `CPX a` (R135). -/
def execCpxAbs (a : Word) (s : State) : Result := readForm (.absolute a) (compareReg .x) s

/-- `CPY #d` (R136). -/
def execCpyImm (d : Byte) (s : State) : Result := readForm (.immediate d) (compareReg .y) s

/-- `CPY d` (R136). -/
def execCpyZp (d : Byte) (s : State) : Result := readForm (.zeroPage d) (compareReg .y) s

/-- `CPY a` (R136). -/
def execCpyAbs (a : Word) (s : State) : Result := readForm (.absolute a) (compareReg .y) s

/-- `BIT d` (R137). -/
def execBitZp (d : Byte) (s : State) : Result := readForm (.zeroPage d) bitTest s

/-- `BIT a` (R137). -/
def execBitAbs (a : Word) (s : State) : Result := readForm (.absolute a) bitTest s

end Sys2Proof.Machine
end

