-- ==== Sys2Proof/Machine/JumpStack.lean ====
section
/-! DEFINITION. Jump, subroutine and stack instructions (46_jump_subroutine_stack.md): JMP, JSR, RTS, PHP. -/

namespace Sys2Proof.Machine

/-- JMP: PC takes the operand itself, not the byte stored there (R150). -/
def jumpHandled (a : Word) (s : State) : Handled := .wrotePc (s.setPc a)

/-- What JSR pushes: the address of the third byte of the JSR (R151). -/
def jsrReturn (s : State) : Word := s.pc + 1#16

/-- The state after the two pushes of JSR (R151, R88). -/
def jsrPushed (s : State) : State := s.push16 (jsrReturn s)

/-- The two stack cells JSR pushes to (R151). -/
def jsrCells (s : State) : List Word := [stackAddr s.sp, stackAddr (s.sp - 1#8)]

/-- One of JSR's own operand bytes, at addr, as it reads after the pushes (R151, D15): a push that lands on it has
replaced it, and otherwise it is the byte that was fetched. -/
def jsrOperandByte (addr : Word) (fetched : Byte) (s : State) : Byte :=
  if (jsrCells s).contains addr then (jsrPushed s).read8 addr else fetched

/-- The target of JSR, "read AFTER the pushes" (R151, D15, log entry 12). -/
def jsrTarget (a : Word) (s : State) : Word :=
  joinBytes (jsrOperandByte (s.pc + 1#16) (hiByte a) s) (jsrOperandByte s.pc (loByte a) s)

/-- JSR: push the address of its last byte, then go to the target (R151). -/
def callHandled (a : Word) (s : State) : Handled := .wrotePc ((jsrPushed s).setPc (jsrTarget a s))

/-- RTS: pop a word and go to the address one above it (R152). -/
def returnHandled (s : State) : Handled :=
  let popped := s.pop16
  .wrotePc (popped.2.setPc (popped.1 + 1#16))

/-- The byte PHP pushes: P with Break and Break2 forced to 1 (R153). -/
def phpByte (p : Byte) : Byte := p ||| (flagMask .b ||| flagMask .b2)

/-- PHP: push that byte; P itself is unchanged (R153). -/
def pushStatus (s : State) : State := s.push8 (phpByte s.p)

/-- `JMP a` (R150). -/
def execJmpAbs (a : Word) (s : State) : Result := sequence 2 s (jumpHandled a s)

/-- `JSR a` (R151). -/
def execJsrAbs (a : Word) (s : State) : Result := sequence 2 s (callHandled a s)

/-- `RTS` (R152). -/
def execRts (s : State) : Result := sequence 0 s (returnHandled s)

/-- `PHP` (R153). -/
def execPhp (s : State) : Result := impliedForm pushStatus s

end Sys2Proof.Machine
end

