-- ==== Sys2Proof/Machine/LoadStore.lean ====
section
/-! DEFINITION. Load, store and register transfer (41_load_store_transfer.md): LDA, LDX, LDY, STA, TAX, TXA. -/

namespace Sys2Proof.Machine

/-- Load a register: the byte goes to the register, and the shared rule is applied to it (R100 to R102). -/
def loadReg (r : Reg) (v : Byte) (s : State) : State := (s.setReg r v).setZN v

/-- Copy one register to another and apply the shared rule to the destination (R104, R105). -/
def transferReg (src dst : Reg) (s : State) : State := (s.setReg dst (s.reg src)).setZN (s.reg src)

/-- `LDA #d` (R100). -/
def execLdaImm (d : Byte) (s : State) : Result := readForm (.immediate d) (loadReg .a) s

/-- `LDA d` (R100). -/
def execLdaZp (d : Byte) (s : State) : Result := readForm (.zeroPage d) (loadReg .a) s

/-- `LDA d,X` (R100). -/
def execLdaZpX (d : Byte) (s : State) : Result := readForm (.zeroPageX d) (loadReg .a) s

/-- `LDA a` (R100). -/
def execLdaAbs (a : Word) (s : State) : Result := readForm (.absolute a) (loadReg .a) s

/-- `LDA a,X` (R100). -/
def execLdaAbsX (a : Word) (s : State) : Result := readForm (.absoluteX a) (loadReg .a) s

/-- `LDA a,Y` (R100). -/
def execLdaAbsY (a : Word) (s : State) : Result := readForm (.absoluteY a) (loadReg .a) s

/-- `LDA (d,X)` (R100). -/
def execLdaIndX (d : Byte) (s : State) : Result := readForm (.indirectX d) (loadReg .a) s

/-- `LDA (d),Y` (R100). -/
def execLdaIndY (d : Byte) (s : State) : Result := readForm (.indirectY d) (loadReg .a) s

/-- `LDX #d` (R101). -/
def execLdxImm (d : Byte) (s : State) : Result := readForm (.immediate d) (loadReg .x) s

/-- `LDX d` (R101). -/
def execLdxZp (d : Byte) (s : State) : Result := readForm (.zeroPage d) (loadReg .x) s

/-- `LDX d,Y` (R101). -/
def execLdxZpY (d : Byte) (s : State) : Result := readForm (.zeroPageY d) (loadReg .x) s

/-- `LDX a` (R101). -/
def execLdxAbs (a : Word) (s : State) : Result := readForm (.absolute a) (loadReg .x) s

/-- `LDX a,Y` (R101). -/
def execLdxAbsY (a : Word) (s : State) : Result := readForm (.absoluteY a) (loadReg .x) s

/-- `LDY #d` (R102). -/
def execLdyImm (d : Byte) (s : State) : Result := readForm (.immediate d) (loadReg .y) s

/-- `LDY d` (R102). -/
def execLdyZp (d : Byte) (s : State) : Result := readForm (.zeroPage d) (loadReg .y) s

/-- `LDY d,X` (R102). -/
def execLdyZpX (d : Byte) (s : State) : Result := readForm (.zeroPageX d) (loadReg .y) s

/-- `LDY a` (R102). -/
def execLdyAbs (a : Word) (s : State) : Result := readForm (.absolute a) (loadReg .y) s

/-- `LDY a,X` (R102). -/
def execLdyAbsX (a : Word) (s : State) : Result := readForm (.absoluteX a) (loadReg .y) s

/-- `STA d` (R103). -/
def execStaZp (d : Byte) (s : State) : Result := storeForm (.zeroPage d) State.a s

/-- `STA d,X` (R103). -/
def execStaZpX (d : Byte) (s : State) : Result := storeForm (.zeroPageX d) State.a s

/-- `STA a` (R103). -/
def execStaAbs (a : Word) (s : State) : Result := storeForm (.absolute a) State.a s

/-- `STA a,X` (R103). -/
def execStaAbsX (a : Word) (s : State) : Result := storeForm (.absoluteX a) State.a s

/-- `STA a,Y` (R103). -/
def execStaAbsY (a : Word) (s : State) : Result := storeForm (.absoluteY a) State.a s

/-- `STA (d,X)` (R103). -/
def execStaIndX (d : Byte) (s : State) : Result := storeForm (.indirectX d) State.a s

/-- `STA (d),Y` (R103). -/
def execStaIndY (d : Byte) (s : State) : Result := storeForm (.indirectY d) State.a s

/-- `TAX` (R104). -/
def execTax (s : State) : Result := impliedForm (transferReg .a .x) s

/-- `TXA` (R105). -/
def execTxa (s : State) : Result := impliedForm (transferReg .x .a) s

end Sys2Proof.Machine
end

