-- ==== Sys2Proof/Machine/NopHalt.lean ====
section
/-! DEFINITION. No-operation and halt (47_nop_halt.md): NOP, HALT. -/

namespace Sys2Proof.Machine

/-- NOP changes nothing (R160). -/
def nopEffect (s : State) : State := s

/-- `NOP` (R160). -/
def execNop (s : State) : Result := impliedForm nopEffect s

/-- `HALT` (R161). -/
def execHalt (s : State) : Result := .next s.halt

end Sys2Proof.Machine
end

