-- ==== Sys2Proof/Machine/Shift.lean ====
section
/-! DEFINITION. Shift and rotate (43_shift_rotate.md): ASL and ROL on A and on memory, LSR on A. ROL and LSR are not the
canonical 6502 ones (70_reset_and_hazards.md R197). -/

namespace Sys2Proof.Machine

/-- The byte ASL writes back (R120, R121). -/
def aslByte (v : Byte) (_s : State) : Byte := aslResult v

/-- The flags of ASL: Carry from bit 7 of the old value, the shared rule on the result (R120, R121). -/
def aslFlags (v : Byte) (s : State) : State := (s.setFlag .c (highBit v)).setZN (aslResult v)

/-- The byte ROL writes back, with the old Carry in bit 0 (R122, R123). -/
def rolByte (v : Byte) (s : State) : Byte := rolResult v (s.flag .c)

/-- The flags of ROL: Carry from bit 7 of the old value, and the shared rule on the OLD value (R122, R123). -/
def rolFlags (v : Byte) (s : State) : State := (s.setFlag .c (highBit v)).setZN v

/-- The byte LSR writes back (R124). -/
def lsrByte (v : Byte) (_s : State) : Byte := lsrResult v

/-- The flags of LSR: Carry from bit 7, not bit 0, of the old value, and the shared rule on the result when
LSR_UPDATES_ZN holds (R124, D8; 90_conflicts.md C4). -/
def lsrFlags (v : Byte) (s : State) : State :=
  let t := s.setFlag .c (highBit v)
  if Config.lsrUpdatesZN then t.setZN (lsrResult v) else t

/-- `ASL A` (R120). -/
def execAslAcc (s : State) : Result := accumulatorForm aslByte aslFlags s

/-- `ASL d` (R121). -/
def execAslZp (d : Byte) (s : State) : Result := modifyForm (.zeroPage d) aslByte aslFlags s

/-- `ASL d,X` (R121). -/
def execAslZpX (d : Byte) (s : State) : Result := modifyForm (.zeroPageX d) aslByte aslFlags s

/-- `ASL a` (R121). -/
def execAslAbs (a : Word) (s : State) : Result := modifyForm (.absolute a) aslByte aslFlags s

/-- `ASL a,X` (R121). -/
def execAslAbsX (a : Word) (s : State) : Result := modifyForm (.absoluteX a) aslByte aslFlags s

/-- `ROL A` (R122). -/
def execRolAcc (s : State) : Result := accumulatorForm rolByte rolFlags s

/-- `ROL d` (R123). -/
def execRolZp (d : Byte) (s : State) : Result := modifyForm (.zeroPage d) rolByte rolFlags s

/-- `ROL d,X` (R123). -/
def execRolZpX (d : Byte) (s : State) : Result := modifyForm (.zeroPageX d) rolByte rolFlags s

/-- `ROL a` (R123). -/
def execRolAbs (a : Word) (s : State) : Result := modifyForm (.absolute a) rolByte rolFlags s

/-- `ROL a,X` (R123). -/
def execRolAbsX (a : Word) (s : State) : Result := modifyForm (.absoluteX a) rolByte rolFlags s

/-- `LSR A` (R124). -/
def execLsrAcc (s : State) : Result := accumulatorForm lsrByte lsrFlags s

end Sys2Proof.Machine
end

