-- ==== Sys2Proof/Machine/Dispatch.lean ====
section
/-! DEFINITION. What each instruction does: one arm per constructor of Instr, each one direct call of its meaning. The
state exec is given is the one R70 calls the handler in: PC addresses the byte after the opcode. -/

namespace Sys2Proof.Machine

def exec (i : Instr) (s : State) : Host.Outcome State Fault Refusal :=
  match i with
  -- load, store and transfer (41)
  | .ldaImm d => Sys2Proof.Machine.execLdaImm d s
  | .ldaZp d => Sys2Proof.Machine.execLdaZp d s
  | .ldaZpX d => Sys2Proof.Machine.execLdaZpX d s
  | .ldaAbs a => Sys2Proof.Machine.execLdaAbs a s
  | .ldaAbsX a => Sys2Proof.Machine.execLdaAbsX a s
  | .ldaAbsY a => Sys2Proof.Machine.execLdaAbsY a s
  | .ldaIndX d => Sys2Proof.Machine.execLdaIndX d s
  | .ldaIndY d => Sys2Proof.Machine.execLdaIndY d s
  | .ldxImm d => Sys2Proof.Machine.execLdxImm d s
  | .ldxZp d => Sys2Proof.Machine.execLdxZp d s
  | .ldxZpY d => Sys2Proof.Machine.execLdxZpY d s
  | .ldxAbs a => Sys2Proof.Machine.execLdxAbs a s
  | .ldxAbsY a => Sys2Proof.Machine.execLdxAbsY a s
  | .ldyImm d => Sys2Proof.Machine.execLdyImm d s
  | .ldyZp d => Sys2Proof.Machine.execLdyZp d s
  | .ldyZpX d => Sys2Proof.Machine.execLdyZpX d s
  | .ldyAbs a => Sys2Proof.Machine.execLdyAbs a s
  | .ldyAbsX a => Sys2Proof.Machine.execLdyAbsX a s
  | .staZp d => Sys2Proof.Machine.execStaZp d s
  | .staZpX d => Sys2Proof.Machine.execStaZpX d s
  | .staAbs a => Sys2Proof.Machine.execStaAbs a s
  | .staAbsX a => Sys2Proof.Machine.execStaAbsX a s
  | .staAbsY a => Sys2Proof.Machine.execStaAbsY a s
  | .staIndX d => Sys2Proof.Machine.execStaIndX d s
  | .staIndY d => Sys2Proof.Machine.execStaIndY d s
  | .tax => Sys2Proof.Machine.execTax s
  | .txa => Sys2Proof.Machine.execTxa s
  -- arithmetic and logic (42)
  | .adcImm d => Sys2Proof.Machine.execAdcImm d s
  | .adcZp d => Sys2Proof.Machine.execAdcZp d s
  | .adcZpX d => Sys2Proof.Machine.execAdcZpX d s
  | .adcAbs a => Sys2Proof.Machine.execAdcAbs a s
  | .adcAbsX a => Sys2Proof.Machine.execAdcAbsX a s
  | .adcAbsY a => Sys2Proof.Machine.execAdcAbsY a s
  | .adcIndX d => Sys2Proof.Machine.execAdcIndX d s
  | .adcIndY d => Sys2Proof.Machine.execAdcIndY d s
  | .andImm d => Sys2Proof.Machine.execAndImm d s
  | .andZp d => Sys2Proof.Machine.execAndZp d s
  | .andZpX d => Sys2Proof.Machine.execAndZpX d s
  | .andAbs a => Sys2Proof.Machine.execAndAbs a s
  | .andAbsX a => Sys2Proof.Machine.execAndAbsX a s
  | .andAbsY a => Sys2Proof.Machine.execAndAbsY a s
  | .andIndX d => Sys2Proof.Machine.execAndIndX d s
  | .andIndY d => Sys2Proof.Machine.execAndIndY d s
  | .oraImm d => Sys2Proof.Machine.execOraImm d s
  | .oraZp d => Sys2Proof.Machine.execOraZp d s
  | .oraZpX d => Sys2Proof.Machine.execOraZpX d s
  | .oraAbs a => Sys2Proof.Machine.execOraAbs a s
  | .oraAbsX a => Sys2Proof.Machine.execOraAbsX a s
  | .oraAbsY a => Sys2Proof.Machine.execOraAbsY a s
  | .oraIndX d => Sys2Proof.Machine.execOraIndX d s
  | .oraIndY d => Sys2Proof.Machine.execOraIndY d s
  -- shift and rotate (43)
  | .aslAcc => Sys2Proof.Machine.execAslAcc s
  | .aslZp d => Sys2Proof.Machine.execAslZp d s
  | .aslZpX d => Sys2Proof.Machine.execAslZpX d s
  | .aslAbs a => Sys2Proof.Machine.execAslAbs a s
  | .aslAbsX a => Sys2Proof.Machine.execAslAbsX a s
  | .rolAcc => Sys2Proof.Machine.execRolAcc s
  | .rolZp d => Sys2Proof.Machine.execRolZp d s
  | .rolZpX d => Sys2Proof.Machine.execRolZpX d s
  | .rolAbs a => Sys2Proof.Machine.execRolAbs a s
  | .rolAbsX a => Sys2Proof.Machine.execRolAbsX a s
  | .lsrAcc => Sys2Proof.Machine.execLsrAcc s
  -- increment, decrement, compare, bit test (44)
  | .inx => Sys2Proof.Machine.execInx s
  | .dex => Sys2Proof.Machine.execDex s
  | .incZp d => Sys2Proof.Machine.execIncZp d s
  | .incZpX d => Sys2Proof.Machine.execIncZpX d s
  | .incAbs a => Sys2Proof.Machine.execIncAbs a s
  | .incAbsX a => Sys2Proof.Machine.execIncAbsX a s
  | .decZp d => Sys2Proof.Machine.execDecZp d s
  | .decZpX d => Sys2Proof.Machine.execDecZpX d s
  | .decAbs a => Sys2Proof.Machine.execDecAbs a s
  | .decAbsX a => Sys2Proof.Machine.execDecAbsX a s
  | .cmpImm d => Sys2Proof.Machine.execCmpImm d s
  | .cmpZp d => Sys2Proof.Machine.execCmpZp d s
  | .cmpZpX d => Sys2Proof.Machine.execCmpZpX d s
  | .cmpAbs a => Sys2Proof.Machine.execCmpAbs a s
  | .cmpAbsX a => Sys2Proof.Machine.execCmpAbsX a s
  | .cmpAbsY a => Sys2Proof.Machine.execCmpAbsY a s
  | .cmpIndX d => Sys2Proof.Machine.execCmpIndX d s
  | .cmpIndY d => Sys2Proof.Machine.execCmpIndY d s
  | .cpxImm d => Sys2Proof.Machine.execCpxImm d s
  | .cpxZp d => Sys2Proof.Machine.execCpxZp d s
  | .cpxAbs a => Sys2Proof.Machine.execCpxAbs a s
  | .cpyImm d => Sys2Proof.Machine.execCpyImm d s
  | .cpyZp d => Sys2Proof.Machine.execCpyZp d s
  | .cpyAbs a => Sys2Proof.Machine.execCpyAbs a s
  | .bitZp d => Sys2Proof.Machine.execBitZp d s
  | .bitAbs a => Sys2Proof.Machine.execBitAbs a s
  -- flags and branches (45)
  | .sec => Sys2Proof.Machine.execSec s
  | .clc => Sys2Proof.Machine.execClc s
  | .bcc r => Sys2Proof.Machine.execBcc r s
  | .bcs r => Sys2Proof.Machine.execBcs r s
  | .beq r => Sys2Proof.Machine.execBeq r s
  | .bne r => Sys2Proof.Machine.execBne r s
  | .bmi r => Sys2Proof.Machine.execBmi r s
  | .bpl r => Sys2Proof.Machine.execBpl r s
  -- jump, subroutine, stack (46)
  | .jmpAbs a => Sys2Proof.Machine.execJmpAbs a s
  | .jsrAbs a => Sys2Proof.Machine.execJsrAbs a s
  | .rts => Sys2Proof.Machine.execRts s
  | .php => Sys2Proof.Machine.execPhp s
  -- no-operation and halt (47)
  | .nop => Sys2Proof.Machine.execNop s
  | .halt => Sys2Proof.Machine.execHalt s

end Sys2Proof.Machine
end

