-- ==== Sys2Proof/Machine/Fetch.lean ====
section
/-! DEFINITION. Fetching an instruction (40_dispatch_and_addressing.md R70; 30_encoding.md R50): what step does around
exec. -/

namespace Sys2Proof.Machine

/-- The opcode byte at PC and the two bytes after it, addresses mod 65536 (R50): as many as the longest instruction
has. Reading has no side effect (20_memory.md R31), so reading more than the instruction has changes nothing. -/
def fetchBytes (s : State) : List Byte := [s.read8 s.pc, s.read8 (s.pc + 1#16), s.read8 (s.pc + 2#16)]

/-- The instruction at PC, none when its opcode byte is absent from the dispatch table. -/
def fetchDecode (s : State) : Option Instr :=
  match decode (fetchBytes s) with
  | .ok (i, _) => some i
  | .error _ => none

/-- PC moved past the opcode byte: the state a handler is called in (R70). -/
def pastOpcode (s : State) : State := s.setPc (s.pc + 1#16)

/-- The state after a step that fetches an illegal opcode (R70, R171): PC past the byte, `run_state` Faulted with it,
nothing else changed. -/
def illegalOutcome (s : State) : State := (pastOpcode s).fatal (.illegalOpcode (s.read8 s.pc))

/-- Bytes written to memory at ascending addresses, mod 65536. -/
def writeBytes : List Byte → Word → State → State
  | [], _, s => s
  | b :: bytes, addr, s => writeBytes bytes (addr + 1#16) (s.write8 addr b)

/-- The state with a table word's bytes at PC, where the next step fetches, and Running, without which there is no step
(log entry 14). -/
def placeWord (s : State) (nbits w : Nat) : State :=
  { writeBytes (tableWordBytes nbits w) s.pc s with runState := .running }

end Sys2Proof.Machine
end

