-- ==== Sys2Proof/Machine/Step.lean ====
section
/-! DEFINITION. One step of the core (40_dispatch_and_addressing.md R70). -/

namespace Sys2Proof.Machine

/-- The state with a table word stored where the next step fetches, and able to step. -/
def State.withFetchWord (s : State) (nbits w : Nat) : State := placeWord s nbits w

/-- `Step()` (R70). It exists only when the core is Running (R20, R194). -/
def step (s : State) : Host.Outcome State Fault Refusal :=
  match s.runState with
  | .halted => .fault .coreHalted
  | .faulted r => .fault (.coreFaulted r)
  | .running =>
    match fetchDecode s with
    | some i => exec i (pastOpcode s)
    | none => .next (illegalOutcome s)

end Sys2Proof.Machine
end

