-- ==== Sys2Proof/Machine/Loop.lean ====
section
/-! DEFINITION. The dispatch loop as 40_dispatch_and_addressing.md R70 writes it, over any dispatch table T (OPTABLE is a
parameter, 00_scope.md R4): one opcode byte is fetched, the handler is called with the mode of its table entry, and the
handler or the resolver reads the operand bytes at PC. Malformed rows (30_encoding.md R58) and NOP rows with operand bytes
(47_nop_halt.md R160) have their meaning here. With the default table this is the machine of Step.lean; that they agree is
an obligation. -/

namespace Sys2Proof.Machine

/-- `EA(mode)`: the resolver, which reads the operand bytes at PC (R75 to R83), none where it fails fast (R82). -/
def resolve (m : Mode) (s : State) : Option Word :=
  match m with
  | .immediate => some s.pc
  | .zeroPage => some (zext16 (s.read8 s.pc))
  | .zeroPageX => some (zext16 (s.read8 s.pc + s.x))
  | .zeroPageY => some (zext16 (s.read8 s.pc + s.y))
  | .absolute => some (s.read16 s.pc)
  | .absoluteX => some (s.read16 s.pc + zext16 s.x)
  | .absoluteY => some (s.read16 s.pc + zext16 s.y)
  | .indirectX => some (zeroPageWord (s.read8 s.pc + s.x) s)
  | .indirectY => some (indirectYBase (s.read8 s.pc) s + zext16 s.y)
  | .implied | .accumulator | .relative => none

/-- A handler that reads `Operand(mode)` (R84). -/
def readOperand (m : Mode) (effect : Byte → State → State) (s : State) : Handled :=
  match resolve m s with
  | some addr => .ran (effect (s.read8 addr) s)
  | none => .noAddress

/-- A handler that writes a byte at `EA(mode)` (R84). -/
def storeOperand (m : Mode) (value : State → Byte) (s : State) : Handled :=
  match resolve m s with
  | some addr => .ran (s.write8 addr (value s))
  | none => .noAddress

/-- A shift or rotate of A, or of the cell at `EA(mode)` (R84, R85). -/
def modifyOperand (m : Mode) (result : Byte → State → Byte) (flags : Byte → State → State) (s : State) : Handled :=
  match m with
  | .accumulator => .ran ((flags s.a s).setReg .a (result s.a s))
  | .implied | .immediate | .zeroPage | .zeroPageX | .zeroPageY | .absolute | .absoluteX | .absoluteY | .indirectX
  | .indirectY | .relative =>
    match resolve m s with
    | some addr => .ran ((flags (s.read8 addr) s).write8 addr (result (s.read8 addr) s))
    | none => .noAddress

/-- A read-modify-write handler without an accumulator form: INC, DEC (R132, R133). -/
def modifyCell (m : Mode) (result : Byte → State → Byte) (flags : Byte → State → State) (s : State) : Handled :=
  match resolve m s with
  | some addr => .ran ((flags (s.read8 addr) s).write8 addr (result (s.read8 addr) s))
  | none => .noAddress

/-- JSR as R151 writes it: push PC + 1, then read the target's two bytes at PC. -/
def callOperand (s : State) : Handled := .wrotePc ((jsrPushed s).setPc ((jsrPushed s).read16 s.pc))

/-- The handler of a table entry, called with PC at the first operand byte (R70, R85; files 41 to 47). A handler that
takes no operand from the resolver does the same in every mode (log entry 15). -/
def runHandler (h : Handler) (m : Mode) (s : State) : Handled :=
  match h with
  | .lda => readOperand m (loadReg .a) s
  | .ldx => readOperand m (loadReg .x) s
  | .ldy => readOperand m (loadReg .y) s
  | .sta => storeOperand m State.a s
  | .tax => .ran (transferReg .a .x s)
  | .txa => .ran (transferReg .x .a s)
  | .adc => readOperand m addToA s
  | .and => readOperand m andToA s
  | .ora => readOperand m orToA s
  | .asl => modifyOperand m aslByte aslFlags s
  | .rol => modifyOperand m rolByte rolFlags s
  | .lsr => .ran ((lsrFlags s.a s).setReg .a (lsrByte s.a s))
  | .inx => .ran (incX s)
  | .dex => .ran (decX s)
  | .inc => modifyCell m incByte incFlags s
  | .dec => modifyCell m decByte decFlags s
  | .cmp => readOperand m (compareReg .a) s
  | .cpx => readOperand m (compareReg .x) s
  | .cpy => readOperand m (compareReg .y) s
  | .bit => readOperand m bitTest s
  | .sec => .ran (putCarry true s)
  | .clc => .ran (putCarry false s)
  | .bcc => branchHandled (carryClear s) (s.read8 s.pc) s
  | .bcs => branchHandled (carrySet s) (s.read8 s.pc) s
  | .beq => branchHandled (zeroSet s) (s.read8 s.pc) s
  | .bne => branchHandled (zeroClear s) (s.read8 s.pc) s
  | .bmi => branchHandled (negativeSet s) (s.read8 s.pc) s
  | .bpl => branchHandled (negativeClear s) (s.read8 s.pc) s
  | .jmp => jumpHandled (s.read16 s.pc) s
  | .jsr => callOperand s
  | .rts => returnHandled s
  | .php => .ran (pushStatus s)
  | .nop => .ran (nopEffect s)
  | .halt => .ran s

/-- The part of R70 after the fetch: the entry is looked up, Halt ends the step, and otherwise the handler runs and the
sequencer advances PC. The state is the one whose PC is past the opcode byte. -/
def dispatchEntry (opcode : Byte) (e : Option Descriptor) (s : State) : Result :=
  match e with
  | none => .next (s.fatal (.illegalOpcode opcode))
  | some d => if d.handler = .halt then .next s.halt else sequence d.operandLength s (runHandler d.handler d.mode s)

/-- `Step()` of R70 over the dispatch table T. -/
def loopStep (T : Byte → Option Descriptor) (s : State) : Result :=
  match s.runState with
  | .halted => .fault .coreHalted
  | .faulted r => .fault (.coreFaulted r)
  | .running => dispatchEntry (s.read8 s.pc) (T (s.read8 s.pc)) (s.setPc (s.pc + 1#16))

end Sys2Proof.Machine
end

