-- ==== Sys2Proof/Machine/HostOps.lean ====
section
/-! DEFINITION. The operations of the host (70_reset_and_hazards.md R190 to R194), each an abstract command that acts on
the state between steps (D23), and runs of steps (40_dispatch_and_addressing.md R73, R74). -/

namespace Sys2Proof.Machine

/-- Construct, "power-on" (R190). It does not read the reset vector. -/
def State.powerOn : State := State.reset

/-- The host's `read(addr)` (20_memory.md R46). -/
def hostRead (addr : Word) (s : State) : Byte := s.read8 addr

/-- The host's `write(addr, value)` (20_memory.md R46). -/
def hostWrite (addr : Word) (v : Byte) (s : State) : State := s.write8 addr v

/-- The read-only accessors of a core: A, X, Y, SP, PC and each named flag (10_state.md R24). -/
structure Visible where
  a  : Byte
  x  : Byte
  y  : Byte
  sp : Byte
  pc : Word
  c  : Bool
  z  : Bool
  i  : Bool
  d  : Bool
  b  : Bool
  b2 : Bool
  v  : Bool
  n  : Bool
  deriving DecidableEq, Repr

/-- What the accessors show (R24). -/
def visible (s : State) : Visible :=
  { a := s.a, x := s.x, y := s.y, sp := s.sp, pc := s.pc, c := s.flag .c, z := s.flag .z, i := s.flag .i, d := s.flag .d,
    b := s.flag .b, b2 := s.flag .b2, v := s.flag .v, n := s.flag .n }

/-- `load(bytes)` (R192): the image is copied to the load base, and then the base goes to the reset vector. Memory is all
it writes. An image that does not fit above the base is refused, and nothing is written (D17). -/
def load (bytes : List Byte) (s : State) : Result :=
  if bytes.length ≤ Config.memSize - Config.loadBase.toNat then
    .next ((writeBytes bytes Config.loadBase s).write16 Config.resetVector Config.loadBase)
  else .refused (.imageTooLong bytes.length)

/-- The four outcomes of a step (60_exceptions.md R170). -/
inductive StepOutcome where
  | running
  | halted
  | illegalOpcode (b : Byte)
  | invalidAddressingMode
  deriving DecidableEq, Repr

/-- The outcome a step that left state t returned: R170's table gives each outcome its own `run_state`. -/
def stepOutcome (t : State) : StepOutcome :=
  match t.runState with
  | .running => .running
  | .halted => .halted
  | .faulted (.illegalOpcode b) => .illegalOpcode b
  | .faulted .invalidAddressingMode => .invalidAddressingMode

/-- Where a run came to an end, and the states its observer was called on, in order. -/
structure RunEnd where
  last     : State
  observed : List State
  deriving DecidableEq, Repr

/-- `run_for(n)` (R73), the observer writing nothing: at most n steps, stopping early when a step does not return Running.
The observer is called on the state each step that returned Running left, after its PC advance, and on none that a step
that halts or faults left (R74, D14). A last state that is still Running is out of fuel (R199). On a core that is not
Running there is no run, whatever n is (R194; 93 U4). -/
def runFor : Nat → State → Host.Outcome RunEnd Fault Refusal
  | 0, s =>
    match s.runState with
    | .running => .next { last := s, observed := [] }
    | .halted => .fault .coreHalted
    | .faulted r => .fault (.coreFaulted r)
  | n + 1, s =>
    match step s with
    | .next t =>
      if stepOutcome t = .running then
        match runFor n t with
        | .next e => .next { last := e.last, observed := t :: e.observed }
        | .fault r => .fault r
        | .refused r => .refused r
      else .next { last := t, observed := [] }
    | .fault r => .fault r
    | .refused r => .refused r

/-- Bytes the host writes between two steps, in order. -/
abbrev HostWrites := List (Word × Byte)

/-- Host writes made one after another (20_memory.md R46). -/
def hostWrites : HostWrites → State → State
  | [], s => s
  | (addr, v) :: later, s => hostWrites later (hostWrite addr v s)

/-- One call of the observer: the state it is called on, and what it writes to memory before it returns. The writes are
an explicit input of the run (R74, R194). -/
structure ObserverCall where
  seen   : State
  writes : HostWrites
  deriving DecidableEq, Repr

/-- `run(observer)` from s returns the outcome o (R73): the steps of the run that return Running are those the observer is
called after, each next step starts from the state the observer leaves, and the step that ends the run leaves t and returns
o. A run that does not end is no instance of this, and no more is one on a core that is not Running (R194, R199). -/
def runs : State → List ObserverCall → State → StepOutcome → Prop
  | s, [], t, o => step s = .next t ∧ stepOutcome t = o ∧ o ≠ .running
  | s, c :: later, t, o =>
    step s = .next c.seen ∧ stepOutcome c.seen = .running ∧ runs (hostWrites c.writes c.seen) later t o

/-- The observer of these calls makes the listed writes: the first list at its first call, and so on, and nothing at a
call past the end of the list. The empty list is the absent observer, and the list is the explicit input R194 asks for. -/
def makesWrites : List HostWrites → List ObserverCall → Prop
  | _, [] => True
  | [], c :: later => c.writes = [] ∧ makesWrites [] later
  | w :: ws, c :: later => c.writes = w ∧ makesWrites ws later

/-- One thing the host does to a core (R194), with its inputs: a run has what its observer writes, call by call. `read` and the accessors change nothing and are hostRead and visible; a
`run_for` is so many `step`s. -/
inductive HostCommand where
  | construct
  | load (bytes : List Byte)
  | reset
  | step
  | run (writes : List HostWrites)
  | write (addr : Word) (value : Byte)
  deriving DecidableEq, Repr

/-- The command may answer r. A step and a run are allowed only on a Running core; the others in any run state (R194). All
but a run answer exactly one r; a run answers the state it ends in, with the observer whose writes the command lists, and
answers nothing when it does not end. -/
def performs (cmd : HostCommand) (s : State) (r : Result) : Prop :=
  match cmd with
  | .construct => r = .next State.powerOn
  | .load bytes => r = Sys2Proof.Machine.load bytes s
  | .reset => r = .next s.hostReset
  | .step => r = Sys2Proof.Machine.step s
  | .run writes =>
    match r with
    | .next t => ∃ calls o, makesWrites writes calls ∧ runs s calls t o
    | .fault f => Sys2Proof.Machine.step s = .fault f
    | .refused f => Sys2Proof.Machine.step s = .refused f
  | .write addr value => r = .next (hostWrite addr value s)

/-- Commands in the order the host gives them, which is the only order there is between host and core (R6, R176). -/
def performsAll : List HostCommand → State → Result → Prop
  | [], s, r => r = .next s
  | cmd :: later, s, r =>
    ∃ r1, performs cmd s r1 ∧
      match r1 with
      | .next t => performsAll later t r
      | .fault f => r = .fault f
      | .refused f => r = .refused f

/-- The boot sequence (R193): power-on, `load(bytes)`, `reset()`. -/
def boot (bytes : List Byte) : Result :=
  match load bytes State.powerOn with
  | .next t => .next t.hostReset
  | .fault r => .fault r
  | .refused r => .refused r

end Sys2Proof.Machine
end

