-- ==== Sys2Proof/Safety.lean ====
section
/-! DEFINITION. What counts as a safe run, in the terms claims use. -/

namespace Sys2Proof.Machine

/-- The one final state of a program: its run has reached opcode 0x00 (70_reset_and_hazards.md R195). A state that is
still Running is not final, and a Faulted one never is (R195, R199; 60_exceptions.md R171). -/
def State.final (s : State) : Bool := decide (s.runState = .halted)

/-- No fatal outcome has happened (60_exceptions.md R170). -/
def State.unfaulted (s : State) : Bool :=
  match s.runState with
  | .running | .halted => true
  | .faulted _ => false

/-- Memory is in its canonical form, so that equal contents are equal states (log entry 1). -/
def State.MemoryCanonical (s : State) : Prop := s.mem.wf = true

/-- The four flags no instruction writes hold their reset values (10_state.md R18). -/
def State.InertFlagsAtReset (s : State) : Prop :=
  s.flag .i = true ∧ s.flag .d = false ∧ s.flag .b = false ∧ s.flag .b2 = true

/-- With the default dispatch table a handler is never given NoneAddressing (30_encoding.md R58). -/
def State.AddressingNeverInvalid (s : State) : Prop := s.runState ≠ .faulted .invalidAddressingMode

/-- What holds of every state a core can be in. -/
def State.Inv (s : State) : Prop := s.MemoryCanonical ∧ s.InertFlagsAtReset ∧ s.AddressingNeverInvalid

end Sys2Proof.Machine
end

