-- ==== Sys2Proof/Certificates/Slice0/Obligations.lean ====
section
/-! DEFINITION. The statements made about the machine, each one rule or a few rules of spec/ said of exec, step or an
operation of the host. exec is given the state R70 calls the handler in: its PC addresses the byte after the opcode.
A docstring that names a decision D<n> of 92_eei_decisions.md, or a log entry, says which clause is the spec's own choice or
the model's and not the source's word. -/

namespace Sys2Proof.Claims

open Sys2Proof.Machine

/-! ### The vocabulary -/

/-- The registers of t are these, and t agrees with s on `run_state`, on every flag not listed and on every memory byte
not listed: the frame of an instruction together with its register results. -/
def Leaves (s t : State) (a x y sp : Byte) (pc : Word) (flags : List Flag) (cells : List Word) : Prop :=
  t.a = a ∧ t.x = x ∧ t.y = y ∧ t.sp = sp ∧ t.pc = pc ∧ t.runState = s.runState ∧
  (∀ f, f ∉ flags → t.flag f = s.flag f) ∧ (∀ q, q ∉ cells → t.read8 q = s.read8 q)

/-- Zero and Negative of t are those of the byte v: what the shared rule says (R17). -/
def ShowsZN (t : State) (v : Byte) : Prop := t.flag .z = decide (v = 0x00#8) ∧ t.flag .n = v.getLsbD 7

/-- The instruction i of operand length len reads the byte v its mode m designates, and ends in a state that `post`
describes, given v, that state and the PC after the instruction. -/
def Reads (i : Instr) (m : AddrMode) (len : Word) (s : State) (post : Byte → State → Word → Prop) : Prop :=
  ∃ v t, operandByte m s = some v ∧ exec i s = .next t ∧ post v t (s.pc + len)

/-- The instruction i of operand length len works on the memory cell its mode m designates, and ends in a state that
`post` describes, given the cell's address, that state and the PC after the instruction. -/
def WorksAt (i : Instr) (m : AddrMode) (len : Word) (s : State) (post : Word → State → Word → Prop) : Prop :=
  ∃ addr t, ea m s = some addr ∧ exec i s = .next t ∧ post addr t (s.pc + len)

/-- The 154 bytes 30_encoding.md R57 lists as illegal opcodes. -/
def illegalBytes : List Byte :=
  [0x02, 0x03, 0x04, 0x07, 0x0B, 0x0C, 0x0F, 0x12, 0x13, 0x14, 0x17, 0x1A, 0x1B, 0x1C, 0x1F, 0x22] ++
  [0x23, 0x27, 0x28, 0x2B, 0x2F, 0x32, 0x33, 0x34, 0x37, 0x3A, 0x3B, 0x3C, 0x3F, 0x40, 0x41, 0x42] ++
  [0x43, 0x44, 0x45, 0x46, 0x47, 0x48, 0x49, 0x4B, 0x4D, 0x4E, 0x4F, 0x50, 0x51, 0x52, 0x53, 0x54] ++
  [0x55, 0x56, 0x57, 0x58, 0x59, 0x5A, 0x5B, 0x5C, 0x5D, 0x5E, 0x5F, 0x62, 0x63, 0x64, 0x66, 0x67] ++
  [0x68, 0x6A, 0x6B, 0x6C, 0x6E, 0x6F, 0x70, 0x72, 0x73, 0x74, 0x76, 0x77, 0x78, 0x7A, 0x7B, 0x7C] ++
  [0x7E, 0x7F, 0x80, 0x82, 0x83, 0x84, 0x86, 0x87, 0x88, 0x89, 0x8B, 0x8C, 0x8E, 0x8F, 0x92, 0x93] ++
  [0x94, 0x96, 0x97, 0x98, 0x9A, 0x9B, 0x9C, 0x9E, 0x9F, 0xA3, 0xA7, 0xA8, 0xAB, 0xAF, 0xB2, 0xB3] ++
  [0xB7, 0xB8, 0xBA, 0xBB, 0xBF, 0xC2, 0xC3, 0xC7, 0xC8, 0xCB, 0xCF, 0xD2, 0xD3, 0xD4, 0xD7, 0xD8] ++
  [0xDA, 0xDB, 0xDC, 0xDF, 0xE1, 0xE2, 0xE3, 0xE5, 0xE7, 0xE9, 0xEB, 0xED, 0xEF, 0xF1, 0xF2, 0xF3] ++
  [0xF4, 0xF5, 0xF7, 0xF8, 0xF9, 0xFA, 0xFB, 0xFC, 0xFD, 0xFF]

/-- The flags each mnemonic writes: the cells of 10_state.md R16's table that are not blank. -/
def flagsWritten : Handler → List Flag
  | .lda | .ldx | .ldy | .tax | .txa | .and | .ora | .inx | .dex | .inc | .dec => [.z, .n]
  | .adc => [.c, .z, .v, .n]
  | .asl | .rol | .lsr | .cmp | .cpx | .cpy => [.c, .z, .n]
  | .bit => [.z, .v, .n]
  | .sec | .clc => [.c]
  | .sta | .bcc | .bcs | .beq | .bne | .bmi | .bpl | .jmp | .jsr | .rts | .php | .nop | .halt => []

/-- Whether an instruction writes A (10_state.md R11). -/
def writesA : Handler × Mode → Bool
  | (.lda, _) | (.txa, _) | (.adc, _) | (.and, _) | (.ora, _) => true
  | (.asl, .accumulator) | (.rol, .accumulator) | (.lsr, .accumulator) => true
  | _ => false

/-- Whether an instruction writes X (10_state.md R12). -/
def writesX : Handler → Bool
  | .ldx | .tax | .inx | .dex => true
  | _ => false

/-- Whether an instruction writes SP (10_state.md R13). -/
def writesSp : Handler → Bool
  | .jsr | .rts | .php => true
  | _ => false

/-- Whether an instruction stores to memory: STA, the memory forms of the read-modify-write instructions, and the two
pushes. -/
def storesToMemory : Handler × Mode → Bool
  | (.sta, _) | (.inc, _) | (.dec, _) | (.jsr, _) | (.php, _) => true
  | (.asl, m) | (.rol, m) => decide (m ≠ .accumulator)
  | _ => false

/-- The handlers that need a memory operand (30_encoding.md R58). -/
def needsMemoryOperand : Handler → Bool
  | .lda | .ldx | .ldy | .sta | .adc | .and | .ora | .cmp | .cpx | .cpy | .bit | .inc | .dec | .asl | .rol => true
  | _ => false

end Sys2Proof.Claims

open Sys2Proof Sys2Proof.Machine Sys2Proof.Claims

/-! ### State, memory, stack -/

/-- 10_state.md R17. SetZN(v) sets Zero exactly when v = 0 and Negative exactly when bit 7 of v is set, whatever they were;
it writes no other flag and nothing else, and it never leaves both set. -/
def Obligations.SharedRuleSetsZeroAndNegative : Prop :=
  ∀ (s : State) (v : Byte), ShowsZN (s.setZN v) v ∧
    Leaves s (s.setZN v) s.a s.x s.y s.sp s.pc [.z, .n] [] ∧
    ¬ ((s.setZN v).flag .z = true ∧ (s.setZN v).flag .n = true)

/-- 20_memory.md R32. A byte write at any address succeeds, sets that one cell and changes nothing else. -/
def Obligations.ByteWriteSetsOneCell : Prop :=
  ∀ (s : State) (addr : Word) (v : Byte),
    (s.write8 addr v).read8 addr = v ∧ (∀ q, q ≠ addr → (s.write8 addr v).read8 q = s.read8 q) ∧
    ∃ m, s.write8 addr v = { s with mem := m }

/-- 20_memory.md R33, R34: a word is two byte accesses, the low byte at addr and the high byte at addr + 1, and reads back
what was written, at every address. That the byte above 0xFFFF is 0x0000 is the spec's decision D10, and the order of the
two accesses its decision D22. -/
def Obligations.WordAccessIsLittleEndian : Prop :=
  ∀ (s : State) (addr w : Word),
    (s.read16 addr).toNat = (s.read8 (addr + 1#16)).toNat * 256 + (s.read8 addr).toNat ∧
    (s.write16 addr w).read16 addr = w ∧
    ((s.write16 addr w).read8 addr).toNat = w.toNat % 256 ∧
    ((s.write16 addr w).read8 (addr + 1#16)).toNat = w.toNat / 256 ∧
    (∀ q, q ≠ addr → q ≠ addr + 1#16 → (s.write16 addr w).read8 q = s.read8 q) ∧
    0xFFFF#16 + 1#16 = 0x0000#16

/-- 20_memory.md R19, R45 and log entry 1: two memories in canonical form that read the same at each of the 65536
addresses are the same list. The form is the model's choice. -/
def Obligations.CanonicalMemoriesWithEqualReadsAreEqual : Prop :=
  ∀ s t : State, s.MemoryCanonical → t.MemoryCanonical → (∀ q, s.read8 q = t.read8 q) → s.mem = t.mem

/-- 10_state.md R10, R24: what the host can see through the accessors, with memory and `run_state`, is the whole state: two
states that agree on it are equal. -/
def Obligations.AccessorsAndMemoryShowTheWholeState : Prop :=
  ∀ s t : State, s.MemoryCanonical → t.MemoryCanonical → visible s = visible t → (∀ q, hostRead q s = hostRead q t) →
    s.runState = t.runState → s = t

/-- 40_dispatch_and_addressing.md R86, R87: a push stores at STACK + SP and then decrements SP, a pop increments SP and
then reads at STACK + SP, both mod 256, the cell kept; so a pop undoes a push. STACK = 0x0100 is the spec's decision
D5. -/
def Obligations.PushAndPopOneByte : Prop :=
  ∀ (s : State) (v : Byte),
    Leaves s (s.push8 v) s.a s.x s.y (s.sp - 1#8) s.pc [] [0x0100#16 + s.sp.setWidth 16] ∧
    (s.push8 v).read8 (0x0100#16 + s.sp.setWidth 16) = v ∧
    s.pop8.1 = s.read8 (0x0100#16 + (s.sp + 1#8).setWidth 16) ∧
    Leaves s s.pop8.2 s.a s.x s.y (s.sp + 1#8) s.pc [] [] ∧
    (s.push8 v).pop8 = (v, s.write8 (0x0100#16 + s.sp.setWidth 16) v)

/-- 40_dispatch_and_addressing.md R88, R89: the high byte of a pushed word lies at the higher stack address as SP counts,
the low byte one below it mod 256, and the word popped next is the word pushed, with SP back where it was. STACK is the
spec's decision D5, and the spec derives the last clause. -/
def Obligations.PushedWordIsPoppedBack : Prop :=
  ∀ (s : State) (w : Word),
    (s.push16 w).read8 (0x0100#16 + s.sp.setWidth 16) = hiByte w ∧
    (s.push16 w).read8 (0x0100#16 + (s.sp - 1#8).setWidth 16) = loByte w ∧
    (s.push16 w).sp = s.sp - 2#8 ∧
    (s.push16 w).pop16.1 = w ∧ (s.push16 w).pop16.2.sp = s.sp

/-! ### Encoding -/

/-- 30_encoding.md R51. The operand length of every table entry, and the number of bytes after the opcode of every
instruction, is a function of the mode alone: 0, 1 or 2. -/
def Obligations.OperandLengthDependsOnTheModeAlone : Prop :=
  (∀ b d, opTable b = some d →
    (d.mode ∈ [.implied, .accumulator] → d.operandLength = 0) ∧
    (d.mode ∈ [.immediate, .zeroPage, .zeroPageX, .zeroPageY, .indirectX, .indirectY, .relative] →
      d.operandLength = 1) ∧
    (d.mode ∈ [.absolute, .absoluteX, .absoluteY] → d.operandLength = 2)) ∧
  (∀ i : Instr,
    (i.form.2 ∈ [.implied, .accumulator] → (encode i).length = 1) ∧
    (i.form.2 ∈ [.immediate, .zeroPage, .zeroPageX, .zeroPageY, .indirectX, .indirectY, .relative] →
      (encode i).length = 2) ∧
    (i.form.2 ∈ [.absolute, .absoluteX, .absoluteY] → (encode i).length = 3))

/-- 30_encoding.md R50, R54, R55: decoding what an instruction is encoded as gives the instruction back, with every operand
at every value, and leaves the bytes after it. The opcode bytes are the spec's decision D1. -/
def Obligations.DecodingAnEncodedInstructionGivesItBack : Prop :=
  ∀ i : Instr, i.wellFormed = true → ∀ rest, decode (encode i ++ rest) = .ok (i, rest)

/-- 30_encoding.md R50, R54: the decoder reads every byte of what it decodes: bytes that decode to an instruction begin with
that instruction's one encoding, and the instruction is well formed. The opcode bytes are the spec's decision D1. -/
def Obligations.DecodedBytesAreTheEncoding : Prop :=
  ∀ bytes i rest, decode bytes = .ok (i, rest) → bytes = encode i ++ rest ∧ i.wellFormed = true

/-- 30_encoding.md R54, R59: words written out from the spec's encodings decode to the instruction they stand for, one or
more for each family of the table. The opcode bytes are the spec's decision D1. -/
def Obligations.WrittenOutWordsDecode : Prop :=
  decodeTableWord 16 0x10B5 = some (.ldaZpX 0x10#8) ∧ decodeTableWord 24 0x1234BE = some (.ldxAbsY 0x1234#16) ∧
  decodeTableWord 16 0x2091 = some (.staIndY 0x20#8) ∧ decodeTableWord 8 0xAA = some .tax ∧
  decodeTableWord 16 0x0569 = some (.adcImm 0x05#8) ∧ decodeTableWord 16 0x2001 = some (.oraIndX 0x20#8) ∧
  decodeTableWord 8 0x4A = some .lsrAcc ∧ decodeTableWord 24 0x02033E = some (.rolAbsX 0x0203#16) ∧
  decodeTableWord 24 0x0203EE = some (.incAbs 0x0203#16) ∧ decodeTableWord 16 0x1024 = some (.bitZp 0x10#8) ∧
  decodeTableWord 16 0xFAD0 = some (.bne 0xFA#8) ∧ decodeTableWord 8 0x38 = some .sec ∧
  decodeTableWord 24 0x800620 = some (.jsrAbs 0x8006#16) ∧ decodeTableWord 8 0x60 = some .rts ∧
  decodeTableWord 8 0x00 = some .halt ∧ decodeTableWord 8 0xEA = some .nop ∧ decodeTableWord 8 0xA8 = none

/-! ### Addressing -/

/-- 40_dispatch_and_addressing.md R75 to R80. The effective address the resolver computes in modes Immediate, ZeroPage,
ZeroPageX, ZeroPageY, Absolute, AbsoluteX, AbsoluteY and IndirectX, from the operand bytes at PC, as numbers with the
reductions written out. -/
def Obligations.ResolverComputesTheEffectiveAddress : Prop :=
  ∀ s : State,
    let d := (s.read8 s.pc).toNat
    let a16 := (s.read8 (s.pc + 1#16)).toNat * 256 + (s.read8 s.pc).toNat
    let ptr := (d + s.x.toNat) % 256
    let lo := (s.read8 (BitVec.ofNat 16 ptr)).toNat
    let hi := (s.read8 (BitVec.ofNat 16 ((ptr + 1) % 256))).toNat
    resolve .immediate s = some s.pc ∧ (resolve .immediate s).map s.read8 = some (s.read8 s.pc) ∧
    resolve .zeroPage s = some (BitVec.ofNat 16 d) ∧
    resolve .zeroPageX s = some (BitVec.ofNat 16 ((d + s.x.toNat) % 256)) ∧
    resolve .zeroPageY s = some (BitVec.ofNat 16 ((d + s.y.toNat) % 256)) ∧
    resolve .absolute s = some (BitVec.ofNat 16 a16) ∧
    resolve .absoluteX s = some (BitVec.ofNat 16 ((a16 + s.x.toNat) % 65536)) ∧
    resolve .absoluteY s = some (BitVec.ofNat 16 ((a16 + s.y.toNat) % 65536)) ∧
    resolve .indirectX s = some (BitVec.ofNat 16 (hi * 256 + lo))

/-- 40_dispatch_and_addressing.md R81, R82: IndirectY adds Y to the word its zero-page pointer designates, mod 65536, and
NoneAddressing (in all three of its sub-kinds) has no effective address. That the pointer's high byte wraps within page 0 is
the spec's decision D9 (log entry 11). -/
def Obligations.IndirectYAddressAndNoneAddressing : Prop :=
  ∀ s : State,
    let ptr := (s.read8 s.pc).toNat
    let lo := (s.read8 (BitVec.ofNat 16 ptr)).toNat
    let hi := (s.read8 (BitVec.ofNat 16 ((ptr + 1) % 256))).toNat
    resolve .indirectY s = some (BitVec.ofNat 16 ((hi * 256 + lo + s.y.toNat) % 65536)) ∧
    resolve .implied s = none ∧ resolve .accumulator s = none ∧ resolve .relative s = none

/-- 40_dispatch_and_addressing.md R75 to R84 and log entry 3: the address and the operand byte a meaning works on, from the
operand its instruction carries, are those the resolver finds by reading the operand bytes at PC, whenever memory holds
them there. -/
def Obligations.DecodedOperandsMatchTheResolver : Prop :=
  ∀ (s : State) (d : Byte) (a : Word),
    (s.read8 s.pc = d →
      ea (.immediate d) s = resolve .immediate s ∧ ea (.zeroPage d) s = resolve .zeroPage s ∧
      ea (.zeroPageX d) s = resolve .zeroPageX s ∧ ea (.zeroPageY d) s = resolve .zeroPageY s ∧
      ea (.indirectX d) s = resolve .indirectX s ∧ ea (.indirectY d) s = resolve .indirectY s ∧
      operandByte (.immediate d) s = (resolve .immediate s).map s.read8 ∧
      operandByte (.zeroPage d) s = (resolve .zeroPage s).map s.read8 ∧
      operandByte (.zeroPageX d) s = (resolve .zeroPageX s).map s.read8 ∧
      operandByte (.zeroPageY d) s = (resolve .zeroPageY s).map s.read8 ∧
      operandByte (.indirectX d) s = (resolve .indirectX s).map s.read8 ∧
      operandByte (.indirectY d) s = (resolve .indirectY s).map s.read8) ∧
    (s.read8 s.pc = loByte a → s.read8 (s.pc + 1#16) = hiByte a →
      ea (.absolute a) s = resolve .absolute s ∧ ea (.absoluteX a) s = resolve .absoluteX s ∧
      ea (.absoluteY a) s = resolve .absoluteY s ∧
      operandByte (.absolute a) s = (resolve .absolute s).map s.read8 ∧
      operandByte (.absoluteX a) s = (resolve .absoluteX s).map s.read8 ∧
      operandByte (.absoluteY a) s = (resolve .absoluteY s).map s.read8)

/-! ### Load, store, transfer -/

/-- 41_load_store_transfer.md R100: LDA in each of its eight modes loads A with the operand byte, sets Z and N from it, and
changes nothing else but PC. That LDA names A is the spec's decision D21. -/
def Obligations.LdaLoadsTheOperand : Prop :=
  ∀ (s : State) (d : Byte) (a : Word),
    let loads := fun v t pc => Leaves s t v s.x s.y s.sp pc [.z, .n] [] ∧ ShowsZN t v
    Reads (.ldaImm d) (.immediate d) 1#16 s loads ∧ Reads (.ldaZp d) (.zeroPage d) 1#16 s loads ∧
    Reads (.ldaZpX d) (.zeroPageX d) 1#16 s loads ∧ Reads (.ldaAbs a) (.absolute a) 2#16 s loads ∧
    Reads (.ldaAbsX a) (.absoluteX a) 2#16 s loads ∧ Reads (.ldaAbsY a) (.absoluteY a) 2#16 s loads ∧
    Reads (.ldaIndX d) (.indirectX d) 1#16 s loads ∧ Reads (.ldaIndY d) (.indirectY d) 1#16 s loads

/-- 41_load_store_transfer.md R101: LDX in each of its five modes, the indexed ones with Y as index (decision D3). -/
def Obligations.LdxLoadsTheOperand : Prop :=
  ∀ (s : State) (d : Byte) (a : Word),
    let loads := fun v t pc => Leaves s t s.a v s.y s.sp pc [.z, .n] [] ∧ ShowsZN t v
    Reads (.ldxImm d) (.immediate d) 1#16 s loads ∧ Reads (.ldxZp d) (.zeroPage d) 1#16 s loads ∧
    Reads (.ldxZpY d) (.zeroPageY d) 1#16 s loads ∧ Reads (.ldxAbs a) (.absolute a) 2#16 s loads ∧
    Reads (.ldxAbsY a) (.absoluteY a) 2#16 s loads

/-- 41_load_store_transfer.md R102: LDY in each of its five modes, the indexed ones with X as index (decision D3). -/
def Obligations.LdyLoadsTheOperand : Prop :=
  ∀ (s : State) (d : Byte) (a : Word),
    let loads := fun v t pc => Leaves s t s.a s.x v s.sp pc [.z, .n] [] ∧ ShowsZN t v
    Reads (.ldyImm d) (.immediate d) 1#16 s loads ∧ Reads (.ldyZp d) (.zeroPage d) 1#16 s loads ∧
    Reads (.ldyZpX d) (.zeroPageX d) 1#16 s loads ∧ Reads (.ldyAbs a) (.absolute a) 2#16 s loads ∧
    Reads (.ldyAbsX a) (.absoluteX a) 2#16 s loads

/-- 41_load_store_transfer.md R103: STA in each of its seven modes stores A at the effective address, computed before the
write, and writes no flag and no other byte. That STA names A is the spec's decision D21. -/
def Obligations.StaStoresTheAccumulator : Prop :=
  ∀ (s : State) (d : Byte) (a : Word),
    let stores := fun addr t pc => Leaves s t s.a s.x s.y s.sp pc [] [addr] ∧ t.read8 addr = s.a
    WorksAt (.staZp d) (.zeroPage d) 1#16 s stores ∧ WorksAt (.staZpX d) (.zeroPageX d) 1#16 s stores ∧
    WorksAt (.staAbs a) (.absolute a) 2#16 s stores ∧ WorksAt (.staAbsX a) (.absoluteX a) 2#16 s stores ∧
    WorksAt (.staAbsY a) (.absoluteY a) 2#16 s stores ∧ WorksAt (.staIndX d) (.indirectX d) 1#16 s stores ∧
    WorksAt (.staIndY d) (.indirectY d) 1#16 s stores

/-- 41_load_store_transfer.md R104, R105: TAX copies A to X and TXA copies X to A, with Z and N from the byte copied. Which
register each names is the spec's decision D21. -/
def Obligations.TransfersCopyARegister : Prop :=
  ∀ s : State,
    (∃ t, exec .tax s = .next t ∧ Leaves s t s.a s.a s.y s.sp s.pc [.z, .n] [] ∧ ShowsZN t s.a) ∧
    (∃ t, exec .txa s = .next t ∧ Leaves s t s.x s.x s.y s.sp s.pc [.z, .n] [] ∧ ShowsZN t s.x)

/-! ### Arithmetic and logic -/

/-- 42_arithmetic_logic.md R110: ADC in each of its eight modes adds the operand and the incoming Carry to A in binary,
whatever DecimalMode holds (decision D24): the new A is the sum mod 256, C says the sum exceeds 255, V says that A and the
operand agree in bit 7 and the result does not, Z and N come from the result. -/
def Obligations.AdcAddsWithCarry : Prop :=
  ∀ (s : State) (d : Byte) (a : Word),
    let adds := fun (v : Byte) (t : State) (pc : Word) =>
      let sum := s.a.toNat + v.toNat + (if s.flag .c then 1 else 0)
      Leaves s t (BitVec.ofNat 8 (sum % 256)) s.x s.y s.sp pc [.c, .z, .v, .n] [] ∧
      ShowsZN t (BitVec.ofNat 8 (sum % 256)) ∧ t.flag .c = decide (sum > 255) ∧
      t.flag .v = (s.a.getLsbD 7 == v.getLsbD 7 && t.a.getLsbD 7 != s.a.getLsbD 7)
    Reads (.adcImm d) (.immediate d) 1#16 s adds ∧ Reads (.adcZp d) (.zeroPage d) 1#16 s adds ∧
    Reads (.adcZpX d) (.zeroPageX d) 1#16 s adds ∧ Reads (.adcAbs a) (.absolute a) 2#16 s adds ∧
    Reads (.adcAbsX a) (.absoluteX a) 2#16 s adds ∧ Reads (.adcAbsY a) (.absoluteY a) 2#16 s adds ∧
    Reads (.adcIndX d) (.indirectX d) 1#16 s adds ∧ Reads (.adcIndY d) (.indirectY d) 1#16 s adds

/-- 42_arithmetic_logic.md R111: AND in each of its eight modes, with Z and N those of the shared rule on the result, the
inline write of Zero having no observable effect (90_conflicts.md C3). -/
def Obligations.AndCombinesWithA : Prop :=
  ∀ (s : State) (d : Byte) (a : Word),
    let ands := fun v t pc => Leaves s t (s.a &&& v) s.x s.y s.sp pc [.z, .n] [] ∧ ShowsZN t (s.a &&& v)
    Reads (.andImm d) (.immediate d) 1#16 s ands ∧ Reads (.andZp d) (.zeroPage d) 1#16 s ands ∧
    Reads (.andZpX d) (.zeroPageX d) 1#16 s ands ∧ Reads (.andAbs a) (.absolute a) 2#16 s ands ∧
    Reads (.andAbsX a) (.absoluteX a) 2#16 s ands ∧ Reads (.andAbsY a) (.absoluteY a) 2#16 s ands ∧
    Reads (.andIndX d) (.indirectX d) 1#16 s ands ∧ Reads (.andIndY d) (.indirectY d) 1#16 s ands

/-- 42_arithmetic_logic.md R112: ORA in each of its eight modes. -/
def Obligations.OraCombinesWithA : Prop :=
  ∀ (s : State) (d : Byte) (a : Word),
    let ors := fun v t pc => Leaves s t (s.a ||| v) s.x s.y s.sp pc [.z, .n] [] ∧ ShowsZN t (s.a ||| v)
    Reads (.oraImm d) (.immediate d) 1#16 s ors ∧ Reads (.oraZp d) (.zeroPage d) 1#16 s ors ∧
    Reads (.oraZpX d) (.zeroPageX d) 1#16 s ors ∧ Reads (.oraAbs a) (.absolute a) 2#16 s ors ∧
    Reads (.oraAbsX a) (.absoluteX a) 2#16 s ors ∧ Reads (.oraAbsY a) (.absoluteY a) 2#16 s ors ∧
    Reads (.oraIndX d) (.indirectX d) 1#16 s ors ∧ Reads (.oraIndY d) (.indirectY d) 1#16 s ors

/-! ### Shift and rotate -/

/-- 43_shift_rotate.md R120, R121: ASL on A and in each of its four memory modes writes back twice the old byte mod 256,
with C from bit 7 of the old byte and Z and N from the result; a memory form stores that one byte and leaves A alone. -/
def Obligations.AslShiftsLeft : Prop :=
  ∀ (s : State) (d : Byte) (a : Word),
    let shifted := fun (v : Byte) => BitVec.ofNat 8 (v.toNat * 2 % 256)
    let flags := fun (t : State) (v : Byte) => t.flag .c = v.getLsbD 7 ∧ ShowsZN t (shifted v)
    let cell := fun (addr : Word) (t : State) (pc : Word) =>
      Leaves s t s.a s.x s.y s.sp pc [.c, .z, .n] [addr] ∧ t.read8 addr = shifted (s.read8 addr) ∧
      flags t (s.read8 addr)
    (∃ t, exec .aslAcc s = .next t ∧ Leaves s t (shifted s.a) s.x s.y s.sp s.pc [.c, .z, .n] [] ∧ flags t s.a) ∧
    WorksAt (.aslZp d) (.zeroPage d) 1#16 s cell ∧ WorksAt (.aslZpX d) (.zeroPageX d) 1#16 s cell ∧
    WorksAt (.aslAbs a) (.absolute a) 2#16 s cell ∧ WorksAt (.aslAbsX a) (.absoluteX a) 2#16 s cell

/-- 43_shift_rotate.md R122, R123: ROL on A and in each of its four memory modes writes back twice the old byte plus the old
Carry, mod 256, with C from bit 7 of the old byte, and Z and N from the OLD byte, so that N equals C afterwards. That ROL has
memory forms is the spec's decision D3. -/
def Obligations.RolRotatesLeftWithFlagsOfTheOldValue : Prop :=
  ∀ (s : State) (d : Byte) (a : Word),
    let rotated := fun (v : Byte) => BitVec.ofNat 8 ((v.toNat * 2 + (if s.flag .c then 1 else 0)) % 256)
    let flags := fun (t : State) (v : Byte) => t.flag .c = v.getLsbD 7 ∧ ShowsZN t v ∧ t.flag .n = t.flag .c
    let cell := fun (addr : Word) (t : State) (pc : Word) =>
      Leaves s t s.a s.x s.y s.sp pc [.c, .z, .n] [addr] ∧ t.read8 addr = rotated (s.read8 addr) ∧
      flags t (s.read8 addr)
    (∃ t, exec .rolAcc s = .next t ∧ Leaves s t (rotated s.a) s.x s.y s.sp s.pc [.c, .z, .n] [] ∧ flags t s.a) ∧
    WorksAt (.rolZp d) (.zeroPage d) 1#16 s cell ∧ WorksAt (.rolZpX d) (.zeroPageX d) 1#16 s cell ∧
    WorksAt (.rolAbs a) (.absolute a) 2#16 s cell ∧ WorksAt (.rolAbsX a) (.absoluteX a) 2#16 s cell

/-- 43_shift_rotate.md R124: LSR A halves A, takes C from bit 7 of the old A and not from bit 0 (assigned, decision D16),
and, by the spec's decision D8 (log entry 10), takes Z from the result and clears N. -/
def Obligations.LsrHalvesWithCarryFromBitSeven : Prop :=
  ∀ s : State, ∃ t, exec .lsrAcc s = .next t ∧
    Leaves s t (BitVec.ofNat 8 (s.a.toNat / 2)) s.x s.y s.sp s.pc [.c, .z, .n] [] ∧
    t.flag .c = s.a.getLsbD 7 ∧ ShowsZN t (BitVec.ofNat 8 (s.a.toNat / 2)) ∧ t.flag .n = false

/-! ### Increment, decrement, compare, bit test -/

/-- 44_incdec_compare_bit.md R130, R131: INX and DEX step X by one mod 256, with Z and N from the new X and no carry. -/
def Obligations.InxAndDexStepX : Prop :=
  ∀ s : State,
    (∃ t, exec .inx s = .next t ∧ Leaves s t s.a (BitVec.ofNat 8 ((s.x.toNat + 1) % 256)) s.y s.sp s.pc [.z, .n] [] ∧
      ShowsZN t (BitVec.ofNat 8 ((s.x.toNat + 1) % 256))) ∧
    (∃ t, exec .dex s = .next t ∧ Leaves s t s.a (BitVec.ofNat 8 ((s.x.toNat + 255) % 256)) s.y s.sp s.pc [.z, .n] [] ∧
      ShowsZN t (BitVec.ofNat 8 ((s.x.toNat + 255) % 256)))

/-- 44_incdec_compare_bit.md R132, R133: INC and DEC in each of their four modes step one memory cell by one mod 256, with Z
and N from the new value, no carry, no register. -/
def Obligations.IncAndDecStepACell : Prop :=
  ∀ (s : State) (d : Byte) (a : Word),
    let steps := fun (delta : Nat) (addr : Word) (t : State) (pc : Word) =>
      let v := BitVec.ofNat 8 (((s.read8 addr).toNat + delta) % 256)
      Leaves s t s.a s.x s.y s.sp pc [.z, .n] [addr] ∧ t.read8 addr = v ∧ ShowsZN t v
    WorksAt (.incZp d) (.zeroPage d) 1#16 s (steps 1) ∧ WorksAt (.incZpX d) (.zeroPageX d) 1#16 s (steps 1) ∧
    WorksAt (.incAbs a) (.absolute a) 2#16 s (steps 1) ∧ WorksAt (.incAbsX a) (.absoluteX a) 2#16 s (steps 1) ∧
    WorksAt (.decZp d) (.zeroPage d) 1#16 s (steps 255) ∧ WorksAt (.decZpX d) (.zeroPageX d) 1#16 s (steps 255) ∧
    WorksAt (.decAbs a) (.absolute a) 2#16 s (steps 255) ∧ WorksAt (.decAbsX a) (.absoluteX a) 2#16 s (steps 255)

/-- 44_incdec_compare_bit.md R134 to R136, R138: CMP, CPX and CPY in each of their modes set C exactly when the operand is
at most the register (90_conflicts.md C1), set Z exactly when the register is 0x01 and N exactly when it is 0x00 or above
0x80, whatever the operand, and write nothing else. Which register each names is decision D21, that the register is not
written D27, that Carry is assigned D16. -/
def Obligations.OnlyTheCarryOfACompareDependsOnTheOperand : Prop :=
  ∀ (s : State) (d : Byte) (a : Word),
    let compares := fun (reg : Byte) (v : Byte) (t : State) (pc : Word) =>
      Leaves s t s.a s.x s.y s.sp pc [.c, .z, .n] [] ∧ t.flag .c = decide (v.toNat ≤ reg.toNat) ∧
      t.flag .z = decide (reg = 0x01#8) ∧ t.flag .n = decide (reg.toNat = 0 ∨ reg.toNat > 128)
    Reads (.cmpImm d) (.immediate d) 1#16 s (compares s.a) ∧ Reads (.cmpZp d) (.zeroPage d) 1#16 s (compares s.a) ∧
    Reads (.cmpZpX d) (.zeroPageX d) 1#16 s (compares s.a) ∧ Reads (.cmpAbs a) (.absolute a) 2#16 s (compares s.a) ∧
    Reads (.cmpAbsX a) (.absoluteX a) 2#16 s (compares s.a) ∧ Reads (.cmpAbsY a) (.absoluteY a) 2#16 s (compares s.a) ∧
    Reads (.cmpIndX d) (.indirectX d) 1#16 s (compares s.a) ∧ Reads (.cmpIndY d) (.indirectY d) 1#16 s (compares s.a) ∧
    Reads (.cpxImm d) (.immediate d) 1#16 s (compares s.x) ∧ Reads (.cpxZp d) (.zeroPage d) 1#16 s (compares s.x) ∧
    Reads (.cpxAbs a) (.absolute a) 2#16 s (compares s.x) ∧
    Reads (.cpyImm d) (.immediate d) 1#16 s (compares s.y) ∧ Reads (.cpyZp d) (.zeroPage d) 1#16 s (compares s.y) ∧
    Reads (.cpyAbs a) (.absolute a) 2#16 s (compares s.y)

/-- 44_incdec_compare_bit.md R137: BIT in each of its two modes sets Z exactly when A and the operand have a bit in common
(the reverse of the canonical rule; assigned, decision D16), and copies V and N from bits 6 and 7 of the operand. -/
def Obligations.BitSetsZeroWhenABitIsShared : Prop :=
  ∀ (s : State) (d : Byte) (a : Word),
    let tests := fun (v : Byte) (t : State) (pc : Word) =>
      Leaves s t s.a s.x s.y s.sp pc [.z, .v, .n] [] ∧
      (t.flag .z = true ↔ ∃ k, k < 8 ∧ s.a.getLsbD k = true ∧ v.getLsbD k = true) ∧
      t.flag .v = v.getLsbD 6 ∧ t.flag .n = v.getLsbD 7
    Reads (.bitZp d) (.zeroPage d) 1#16 s tests ∧ Reads (.bitAbs a) (.absolute a) 2#16 s tests

/-! ### Flags and branches -/

/-- 45_flags_branch.md R140, R141: SEC sets Carry and CLC clears it; no other bit of P changes. That the bit is Carry is
the spec's decision D21. -/
def Obligations.SecAndClcWriteCarry : Prop :=
  ∀ s : State,
    (∃ t, exec .sec s = .next t ∧ Leaves s t s.a s.x s.y s.sp s.pc [.c] [] ∧ t.flag .c = true) ∧
    (∃ t, exec .clc s = .next t ∧ Leaves s t s.a s.x s.y s.sp s.pc [.c] [] ∧ t.flag .c = false)

/-- 45_flags_branch.md R142 to R148: a branch whose condition holds goes to the address after the offset byte plus the
signed offset, mod 65536; one whose condition does not hold goes past the offset byte; neither changes anything but PC. The
condition of each mnemonic is the spec's decision D7 (log entry 9). -/
def Obligations.BranchesFollowOneFlag : Prop :=
  ∀ (s : State) (r : Byte),
    let branches := fun (i : Instr) (taken : Bool) => exec i s = .next (s.setPc (BitVec.ofInt 16
      (if taken then (s.pc.toNat : Int) + 1 + r.toInt else (s.pc.toNat : Int) + 1)))
    branches (.bcc r) (!s.flag .c) ∧ branches (.bcs r) (s.flag .c) ∧ branches (.beq r) (s.flag .z) ∧
    branches (.bne r) (!s.flag .z) ∧ branches (.bmi r) (s.flag .n) ∧ branches (.bpl r) (!s.flag .n)

/-! ### Jump, subroutine, stack -/

/-- 46_jump_subroutine_stack.md R150: JMP sets PC to its operand, even where that is the address of its own first operand
byte (decision D18), and changes nothing else. -/
def Obligations.JmpGoesToItsOperand : Prop :=
  ∀ (s : State) (a : Word), exec (.jmpAbs a) s = .next (s.setPc a)

/-- 46_jump_subroutine_stack.md R151: JSR pushes the address of its own last byte (PC + 1, PC being its second byte), the
high byte at STACK + SP and the low byte one stack cell below, lowers SP by two, and goes to its operand, where neither push
lands on an operand byte. STACK is decision D5. -/
def Obligations.JsrPushesItsLastAddressAndJumps : Prop :=
  ∀ (s : State) (a : Word),
    let hiCell := 0x0100#16 + s.sp.setWidth 16
    let loCell := 0x0100#16 + (s.sp - 1#8).setWidth 16
    ∃ t, exec (.jsrAbs a) s = .next t ∧ Leaves s t s.a s.x s.y (s.sp - 2#8) t.pc [] [hiCell, loCell] ∧
      t.read8 hiCell = hiByte (s.pc + 1#16) ∧ t.read8 loCell = loByte (s.pc + 1#16) ∧
      (s.pc ∉ [hiCell, loCell] → s.pc + 1#16 ∉ [hiCell, loCell] → t.pc = a)

/-- 46_jump_subroutine_stack.md R151, the spec's decision D15 (log entry 12): the target of JSR is the word its operand bytes
hold AFTER the pushes, wherever the instruction lies, when memory held its operand. -/
def Obligations.JsrReadsItsTargetAfterThePushes : Prop :=
  ∀ (s : State) (a : Word), s.read8 s.pc = loByte a → s.read8 (s.pc + 1#16) = hiByte a →
    ∃ t, exec (.jsrAbs a) s = .next t ∧ t.pc = t.read16 s.pc

/-- 46_jump_subroutine_stack.md R152: RTS pops the low byte and then the high byte, goes to the address one above the word
they make, raises SP by two, and writes no memory and no flag. STACK is decision D5. -/
def Obligations.RtsReturnsPastThePoppedAddress : Prop :=
  ∀ s : State,
    let lo := s.read8 (0x0100#16 + (s.sp + 1#8).setWidth 16)
    let hi := s.read8 (0x0100#16 + (s.sp + 2#8).setWidth 16)
    ∃ t, exec .rts s = .next t ∧
      Leaves s t s.a s.x s.y (s.sp + 2#8) (BitVec.ofNat 16 ((hi.toNat * 256 + lo.toNat + 1) % 65536)) [] []

/-- 46_jump_subroutine_stack.md R152, the round trip the spec derives: after a JSR at address c (PC = c + 1 on entry), an RTS
in any later state with the SP the call left and the two return cells as the call left them goes to c + 3, the instruction
after the JSR, with SP as it was before the call. -/
def Obligations.RtsReturnsAfterTheMatchingJsr : Prop :=
  ∀ (s t u : State) (a : Word), exec (.jsrAbs a) s = .next t → u.sp = t.sp →
    (∀ q ∈ jsrCells s, u.read8 q = t.read8 q) →
    ∃ w, exec .rts u = .next w ∧ w.sp = s.sp ∧ w.pc = s.pc + 2#16

/-- 46_jump_subroutine_stack.md R153: PHP pushes P with Break and Break2 set, the other six flags as they are, and P itself
is unchanged. STACK and the bit positions are decisions D5 and D4. -/
def Obligations.PhpPushesStatusWithBreakSet : Prop :=
  ∀ s : State,
    let cell := 0x0100#16 + s.sp.setWidth 16
    ∃ t, exec .php s = .next t ∧ Leaves s t s.a s.x s.y (s.sp - 1#8) s.pc [] [cell] ∧ t.p = s.p ∧
      t.read8 cell = s.p ||| 0x30#8 ∧ getFlag (t.read8 cell) .b = true ∧ getFlag (t.read8 cell) .b2 = true ∧
      ∀ f, f ≠ .b → f ≠ .b2 → getFlag (t.read8 cell) f = s.flag f

/-! ### No-operation, halt, fatal outcomes -/

/-- 47_nop_halt.md R160: NOP changes nothing, and under any dispatch table a NOP entry in any mode does nothing but move PC
past the operand bytes it declares. -/
def Obligations.NopOnlyAdvancesPc : Prop :=
  (∀ s : State, exec .nop s = .next s) ∧
  ∀ (T : Byte → Option Descriptor) (s : State) (d : Descriptor), s.runState = .running →
    T (s.read8 s.pc) = some d → d.handler = .nop →
    loopStep T s = .next (s.setPc (s.pc + 1#16 + BitVec.ofNat 16 d.operandLength))

/-- 47_nop_halt.md R161: HALT makes `run_state` Halted and changes nothing else (decision D26), and a step at opcode 0x00
leaves PC one past it. -/
def Obligations.HaltStopsAndDoesNothingElse : Prop :=
  (∀ s : State, exec .halt s = .next { s with runState := .halted }) ∧
  ∀ s : State, s.runState = .running → s.read8 s.pc = 0x00#8 →
    step s = .next { s with pc := s.pc + 1#16, runState := .halted }

/-- 30_encoding.md R57, 60_exceptions.md R171: the 154 bytes R57 lists are exactly those without a table entry, and a step
that fetches one leaves PC one past it and `run_state` Faulted with the byte, all else unchanged. That the outcome is a next
state is the model's choice (log entry 2), that its state is this one the spec's decision D13. -/
def Obligations.IllegalOpcodeFaultsTheCore : Prop :=
  (∀ b : Byte, opTable b = none ↔ b ∈ illegalBytes) ∧
  ∀ s : State, s.runState = .running → s.read8 s.pc ∈ illegalBytes →
    step s = .next { s with pc := s.pc + 1#16, runState := .faulted (.illegalOpcode (s.read8 s.pc)) }

/-- 30_encoding.md R58, 60_exceptions.md R172: under a dispatch table with a malformed row, a handler that needs a memory
operand and is given NoneAddressing ends the step with InvalidAddressingMode before any write: PC is one past the opcode and
`run_state` says so. The state is the spec's decision D13, the next-state form log entry 2. -/
def Obligations.MalformedRowRaisesInvalidAddressingMode : Prop :=
  ∀ (T : Byte → Option Descriptor) (s : State) (d : Descriptor), s.runState = .running →
    T (s.read8 s.pc) = some d → needsMemoryOperand d.handler = true →
    d.mode ∈ [.implied, .accumulator, .relative] → (d.handler ∈ [.asl, .rol] → d.mode ≠ .accumulator) →
    loopStep T s = .next { s with pc := s.pc + 1#16, runState := .faulted .invalidAddressingMode }

/-- 10_state.md R20 (the spec's decision D12): a core that is Halted or Faulted has no step; the model answers a fault that
says which. -/
def Obligations.StoppedCoreHasNoStep : Prop :=
  ∀ s : State, (s.runState = .halted → step s = .fault .coreHalted) ∧
    ∀ r, s.runState = .faulted r → step s = .fault (.coreFaulted r)

/-! ### The step -/

/-- 40_dispatch_and_addressing.md R70: when the core is Running and the bytes at PC are those of a well-formed instruction,
a step is that instruction's meaning at the state whose PC is past the opcode byte. -/
def Obligations.StepRunsTheDecodedInstruction : Prop :=
  ∀ (s : State) (i : Instr), s.runState = .running → i.wellFormed = true →
    (∀ k (h : k < (encode i).length), s.read8 (s.pc + BitVec.ofNat 16 k) = (encode i)[k]) →
    step s = exec i { s with pc := s.pc + 1#16 }

/-- 40_dispatch_and_addressing.md R70, R75 to R85 (and log entry 3): in every state, the model's step, which decodes an
instruction with its operand and runs its meaning, is the dispatch loop over the default table, which looks up one byte and
lets the handler read its operand bytes from memory at PC. -/
def Obligations.StepIsTheDispatchLoop : Prop := ∀ s : State, step s = loopStep opTable s

/-- 10_state.md R20, 60_exceptions.md R176, R177: a step starts only from Running. It leaves Halted exactly when the byte at
PC is 0x00, Faulted exactly when that byte is one of the illegal ones, with that byte, and Running otherwise; and a step that
stops the core has changed nothing but PC, by one, and `run_state`. (Decisions D12, D13.) -/
def Obligations.OnlyOpcodesStopTheCore : Prop :=
  ∀ s t : State, step s = .next t →
    s.runState = .running ∧ (t.runState = .halted ↔ s.read8 s.pc = 0x00#8) ∧
    (∀ r, t.runState = .faulted r ↔ s.read8 s.pc ∈ illegalBytes ∧ r = .illegalOpcode (s.read8 s.pc)) ∧
    (t.runState ≠ .running → t = { s with pc := s.pc + 1#16, runState := t.runState })

/-! ### Whole-machine rules -/

/-- 10_state.md R16: an instruction keeps every flag whose cell in R16's table is blank for it. -/
def Obligations.FlagsOutsideTheTableAreKept : Prop :=
  ∀ (i : Instr) (s t : State), exec i s = .next t → ∀ f, f ∉ flagsWritten i.form.1 → t.flag f = s.flag f

/-- 10_state.md R11 to R13: only the instructions those rules name write A, X, Y and SP, Y being written by LDY alone; and only
STA, INC, DEC, the memory forms of ASL and ROL, JSR and PHP change a byte of memory. -/
def Obligations.RegistersAndMemoryHaveOnlyTheirWriters : Prop :=
  ∀ (i : Instr) (s t : State), exec i s = .next t →
    (writesA i.form = false → t.a = s.a) ∧ (writesX i.form.1 = false → t.x = s.x) ∧
    (i.form.1 ≠ .ldy → t.y = s.y) ∧ (writesSp i.form.1 = false → t.sp = s.sp) ∧
    (storesToMemory i.form = false → ∀ q, t.read8 q = s.read8 q)

/-- 10_state.md R13, 40_dispatch_and_addressing.md R90: the pushes of JSR and PHP change no byte outside 0x0100 to 0x01FF,
whatever SP is. The page is the spec's decision D5. -/
def Obligations.StackStaysInItsPage : Prop :=
  ∀ (i : Instr) (s t : State), i.form.1 ∈ [.jsr, .php, .rts] → exec i s = .next t →
    ∀ q, t.read8 q ≠ s.read8 q → 0x0100 ≤ q.toNat ∧ q.toNat ≤ 0x01FF

/-- 10_state.md R18, R19, 30_encoding.md R58 and log entry 1: every step keeps memory in canonical form, the flags I, D, B,
B2 at their reset values, and `run_state` off InvalidAddressingMode. -/
def Obligations.StepKeepsTheInvariant : Prop := ∀ s t : State, s.Inv → step s = .next t → t.Inv

/-- The invariant holds right after reset. -/
def Obligations.ResetMeetsTheInvariant : Prop := State.reset.Inv

/-- 70_reset_and_hazards.md R194, 10_state.md R18: whatever the host does, runs with an observer that writes among it,
in any order, from any state that meets the invariant, the invariant holds of the state the core is then in. -/
def Obligations.HostCommandsKeepTheInvariant : Prop :=
  ∀ (cmds : List HostCommand) (s t : State), s.Inv → performsAll cmds s (.next t) → t.Inv

/-! ### Power-on, load, reset, run -/

/-- 10_state.md R22, 70_reset_and_hazards.md R190: the state after power-on. That it is Running is decision D12. -/
def Obligations.PowerOnState : Prop :=
  let s := State.powerOn
  s.a = 0x00#8 ∧ s.x = 0x00#8 ∧ s.y = 0x00#8 ∧ s.sp = 0xFD#8 ∧ s.pc = 0x0000#16 ∧ s.p = 0x24#8 ∧
  (∀ f, s.flag f = decide (f = .i ∨ f = .b2)) ∧ (∀ q, s.read8 q = 0x00#8) ∧ s.runState = .running

/-- 70_reset_and_hazards.md R191: reset() in any run state zeroes A and X, keeps Y (decision D11), restores SP and P, takes PC
from 0xFFFC (low) and 0xFFFD (high), keeps memory and leaves the core Running. -/
def Obligations.ResetReloadsFromTheVector : Prop :=
  ∀ s : State, ∃ t, (∀ r, performs .reset s r ↔ r = .next t) ∧
    t.a = 0x00#8 ∧ t.x = 0x00#8 ∧ t.y = s.y ∧ t.sp = 0xFD#8 ∧ t.p = 0x24#8 ∧
    t.pc.toNat = (s.read8 0xFFFD#16).toNat * 256 + (s.read8 0xFFFC#16).toNat ∧
    (∀ q, t.read8 q = s.read8 q) ∧ t.runState = .running

/-- 70_reset_and_hazards.md R192: load() puts byte k of the image at LOAD_BASE + k, except that the two bytes of the reset
vector then hold LOAD_BASE; it changes no other byte, no register and not `run_state`. An image longer than 32768 bytes is
refused. LOAD_BASE = 0x8000 is decision D6; the refusal and the order are D17. -/
def Obligations.LoadCopiesTheImageAndSetsTheVector : Prop :=
  ∀ (bytes : List Byte) (s : State),
    (bytes.length ≤ 32768 → ∃ t, load bytes s = .next t ∧
      (∃ m, t = { s with mem := m }) ∧ t.read8 0xFFFC#16 = 0x00#8 ∧ t.read8 0xFFFD#16 = 0x80#8 ∧
      (∀ k (h : k < bytes.length), k ≠ 0x7FFC → k ≠ 0x7FFD → t.read8 (BitVec.ofNat 16 (0x8000 + k)) = bytes[k]) ∧
      (∀ q : Word, (q.toNat < 0x8000 ∨ 0x8000 + bytes.length ≤ q.toNat) → q ≠ 0xFFFC#16 → q ≠ 0xFFFD#16 →
        t.read8 q = s.read8 q)) ∧
    (32768 < bytes.length → load bytes s = .refused (.imageTooLong bytes.length))

/-- 70_reset_and_hazards.md R193, derived there: after power-on, load() and reset(), on whatever core they are performed, the core is about to fetch the first
byte of the image at 0x8000, with the registers at their reset values. -/
def Obligations.BootStartsAtTheImage : Prop :=
  ∀ bytes : List Byte, bytes.length ≤ 32768 → ∃ t, boot bytes = .next t ∧
    (∀ s r, performsAll [.construct, .load bytes, .reset] s r ↔ r = .next t) ∧
    t.a = 0x00#8 ∧ t.x = 0x00#8 ∧ t.y = 0x00#8 ∧ t.sp = 0xFD#8 ∧ t.p = 0x24#8 ∧ t.pc = 0x8000#16 ∧
    t.runState = .running ∧
    (∀ k (h : k < bytes.length), k ≠ 0x7FFC → k ≠ 0x7FFD → t.read8 (BitVec.ofNat 16 (0x8000 + k)) = bytes[k])

/-- 40_dispatch_and_addressing.md R73, R74, 70_reset_and_hazards.md R199: on a Running core run_for(n) takes at most n steps:
the k-th state the observer sees is what step answers at the one before it, the first at s, and is Running; and either all n
steps returned Running and the run ends at the last of these states, out of fuel, or one step more, within the n, stops the
core and the run ends at the state it left, which the observer does not see (decision D14). -/
def Obligations.RunForStopsOrUsesItsFuel : Prop :=
  ∀ (n : Nat) (s : State), s.runState = .running → ∃ last observed,
    runFor n s = .next { last := last, observed := observed } ∧
    (∀ p ∈ (s :: observed).zip observed, step p.1 = .next p.2 ∧ p.2.runState = .running) ∧
    ((observed.length = n ∧ last = observed.getLastD s) ∨
      (observed.length < n ∧ step (observed.getLastD s) = .next last ∧ last.runState ≠ .running))

/-- 40_dispatch_and_addressing.md R73, R74, 00_scope.md R5: a run of no step changes nothing, a run of one step ends at the state
step answers, seen by the observer exactly when it is Running (decision D14, log entry 21), and a run of m + n steps whose first m leave the core
Running is the run of m steps followed by the run of n from where it ended, observer calls included. -/
def Obligations.RunsCompose : Prop :=
  ∀ s : State, s.runState = .running →
    runFor 0 s = .next { last := s, observed := [] } ∧
    (∀ t, step s = .next t →
      runFor 1 s = .next { last := t, observed := if t.runState = .running then [t] else [] }) ∧
    ∀ m n e e', runFor m s = .next e → e.last.runState = .running → runFor n e.last = .next e' →
      runFor (m + n) s = .next { last := e'.last, observed := e.observed ++ e'.observed }

/-- 40_dispatch_and_addressing.md R73, 70_reset_and_hazards.md R199: a run() whose observer writes nothing returns the
outcome o at the state t, the observer having seen these states, exactly when some run_for(n) stops there with the same
observer calls (made after Running steps only, decision D14); the host's run command with no writes answers the states some
run_for(n) stops at. So a run() that never returns is one whose every run_for(n) is out of fuel. -/
def Obligations.RunReturnsWhereRunForStops : Prop :=
  ∀ s t : State,
    (∀ (observed : List State) (o : StepOutcome),
      runs s (observed.map fun u => { seen := u, writes := [] }) t o ↔
        ∃ n, runFor n s = .next { last := t, observed := observed } ∧ stepOutcome t = o ∧ o ≠ .running) ∧
    (performs (.run []) s (.next t) ↔ ∃ n observed, runFor n s = .next { last := t, observed := observed } ∧
      t.runState ≠ .running)

/-- 00_scope.md R5, 40_dispatch_and_addressing.md R73, 70_reset_and_hazards.md R194: a run() returns at most once: with an
observer whose writes depend on nothing but the state it is called on, two runs from one state call it on the same states,
end in the same state and return the same outcome. And with every host write an explicit input, a run's observer's among
them, a sequence of host commands has at most one answer from one state. -/
def Obligations.RunsAndHostCommandsHaveOneAnswer : Prop :=
  (∀ (observer : State → HostWrites) (s t t' : State) (calls calls' : List ObserverCall) (o o' : StepOutcome),
    (∀ c ∈ calls, c.writes = observer c.seen) → (∀ c ∈ calls', c.writes = observer c.seen) →
    runs s calls t o → runs s calls' t' o' → calls = calls' ∧ t = t' ∧ o = o') ∧
  ∀ (cmds : List HostCommand) (s : State) (r r' : Result), performsAll cmds s r → performsAll cmds s r' → r = r'

/-- 70_reset_and_hazards.md R194, 60_exceptions.md R178 (the spec's decision D12): on a Halted or Faulted core there is no
run: run() returns nothing, whatever the observer, and the model answers run() and run_for(n), for every n, with the fault
that says which. -/
def Obligations.StoppedCoreHasNoRun : Prop :=
  ∀ (s : State) (f : Fault),
    (s.runState = .halted ∧ f = .coreHalted ∨ ∃ r, s.runState = .faulted r ∧ f = .coreFaulted r) →
    (∀ calls t o, ¬ runs s calls t o) ∧ (∀ writes r, performs (.run writes) s r ↔ r = .fault f) ∧ ∀ n, runFor n s = .fault f
end

