-- ==== Sys2Proof/Laws/State.lean ====
section
/-! SUPPORT. One lemma per field per update of State, and what the accessors (flag, read8, reg) make of each update, so
that no later proof unfolds a record update. -/

namespace Sys2Proof.Machine

variable (s : State)

/-! #### write8 -/

@[simp] theorem write8_a (addr : Word) (v : Byte) : (s.write8 addr v).a = s.a := rfl
@[simp] theorem write8_x (addr : Word) (v : Byte) : (s.write8 addr v).x = s.x := rfl
@[simp] theorem write8_y (addr : Word) (v : Byte) : (s.write8 addr v).y = s.y := rfl
@[simp] theorem write8_sp (addr : Word) (v : Byte) : (s.write8 addr v).sp = s.sp := rfl
@[simp] theorem write8_pc (addr : Word) (v : Byte) : (s.write8 addr v).pc = s.pc := rfl
@[simp] theorem write8_p (addr : Word) (v : Byte) : (s.write8 addr v).p = s.p := rfl
@[simp] theorem write8_mem (addr : Word) (v : Byte) : (s.write8 addr v).mem = Memory.write s.mem addr.toNat v := rfl
@[simp] theorem write8_runState (addr : Word) (v : Byte) : (s.write8 addr v).runState = s.runState := rfl
@[simp] theorem write8_flag (addr : Word) (v : Byte) (g : Flag) : (s.write8 addr v).flag g = s.flag g := rfl
@[simp] theorem write8_reg (addr : Word) (v : Byte) (g : Reg) : (s.write8 addr v).reg g = s.reg g := by cases g <;> rfl

/-! #### setSp -/

@[simp] theorem setSp_a (v : Byte) : (s.setSp v).a = s.a := rfl
@[simp] theorem setSp_x (v : Byte) : (s.setSp v).x = s.x := rfl
@[simp] theorem setSp_y (v : Byte) : (s.setSp v).y = s.y := rfl
@[simp] theorem setSp_sp (v : Byte) : (s.setSp v).sp = v := rfl
@[simp] theorem setSp_pc (v : Byte) : (s.setSp v).pc = s.pc := rfl
@[simp] theorem setSp_p (v : Byte) : (s.setSp v).p = s.p := rfl
@[simp] theorem setSp_mem (v : Byte) : (s.setSp v).mem = s.mem := rfl
@[simp] theorem setSp_runState (v : Byte) : (s.setSp v).runState = s.runState := rfl
@[simp] theorem setSp_flag (v : Byte) (g : Flag) : (s.setSp v).flag g = s.flag g := rfl
@[simp] theorem setSp_read8 (v : Byte) (q : Word) : (s.setSp v).read8 q = s.read8 q := rfl
@[simp] theorem setSp_reg (v : Byte) (g : Reg) : (s.setSp v).reg g = s.reg g := by cases g <;> rfl

/-! #### setPc -/

@[simp] theorem setPc_a (t : Word) : (s.setPc t).a = s.a := rfl
@[simp] theorem setPc_x (t : Word) : (s.setPc t).x = s.x := rfl
@[simp] theorem setPc_y (t : Word) : (s.setPc t).y = s.y := rfl
@[simp] theorem setPc_sp (t : Word) : (s.setPc t).sp = s.sp := rfl
@[simp] theorem setPc_pc (t : Word) : (s.setPc t).pc = t := rfl
@[simp] theorem setPc_p (t : Word) : (s.setPc t).p = s.p := rfl
@[simp] theorem setPc_mem (t : Word) : (s.setPc t).mem = s.mem := rfl
@[simp] theorem setPc_runState (t : Word) : (s.setPc t).runState = s.runState := rfl
@[simp] theorem setPc_flag (t : Word) (g : Flag) : (s.setPc t).flag g = s.flag g := rfl
@[simp] theorem setPc_read8 (t : Word) (q : Word) : (s.setPc t).read8 q = s.read8 q := rfl
@[simp] theorem setPc_reg (t : Word) (g : Reg) : (s.setPc t).reg g = s.reg g := by cases g <;> rfl

/-! #### setP -/

@[simp] theorem setP_a (v : Byte) : (s.setP v).a = s.a := rfl
@[simp] theorem setP_x (v : Byte) : (s.setP v).x = s.x := rfl
@[simp] theorem setP_y (v : Byte) : (s.setP v).y = s.y := rfl
@[simp] theorem setP_sp (v : Byte) : (s.setP v).sp = s.sp := rfl
@[simp] theorem setP_pc (v : Byte) : (s.setP v).pc = s.pc := rfl
@[simp] theorem setP_p (v : Byte) : (s.setP v).p = v := rfl
@[simp] theorem setP_mem (v : Byte) : (s.setP v).mem = s.mem := rfl
@[simp] theorem setP_runState (v : Byte) : (s.setP v).runState = s.runState := rfl
@[simp] theorem setP_read8 (v : Byte) (q : Word) : (s.setP v).read8 q = s.read8 q := rfl
@[simp] theorem setP_reg (v : Byte) (g : Reg) : (s.setP v).reg g = s.reg g := by cases g <;> rfl

/-! #### setFlag -/

@[simp] theorem setFlag_a (f : Flag) (b : Bool) : (s.setFlag f b).a = s.a := rfl
@[simp] theorem setFlag_x (f : Flag) (b : Bool) : (s.setFlag f b).x = s.x := rfl
@[simp] theorem setFlag_y (f : Flag) (b : Bool) : (s.setFlag f b).y = s.y := rfl
@[simp] theorem setFlag_sp (f : Flag) (b : Bool) : (s.setFlag f b).sp = s.sp := rfl
@[simp] theorem setFlag_pc (f : Flag) (b : Bool) : (s.setFlag f b).pc = s.pc := rfl
@[simp] theorem setFlag_p (f : Flag) (b : Bool) : (s.setFlag f b).p = putFlag s.p f b := rfl
@[simp] theorem setFlag_mem (f : Flag) (b : Bool) : (s.setFlag f b).mem = s.mem := rfl
@[simp] theorem setFlag_runState (f : Flag) (b : Bool) : (s.setFlag f b).runState = s.runState := rfl
@[simp] theorem setFlag_read8 (f : Flag) (b : Bool) (q : Word) : (s.setFlag f b).read8 q = s.read8 q := rfl
@[simp] theorem setFlag_reg (f : Flag) (b : Bool) (g : Reg) : (s.setFlag f b).reg g = s.reg g := by cases g <;> rfl

/-! #### setZN -/

@[simp] theorem setZN_a (v : Byte) : (s.setZN v).a = s.a := rfl
@[simp] theorem setZN_x (v : Byte) : (s.setZN v).x = s.x := rfl
@[simp] theorem setZN_y (v : Byte) : (s.setZN v).y = s.y := rfl
@[simp] theorem setZN_sp (v : Byte) : (s.setZN v).sp = s.sp := rfl
@[simp] theorem setZN_pc (v : Byte) : (s.setZN v).pc = s.pc := rfl
@[simp] theorem setZN_p (v : Byte) : (s.setZN v).p = putFlag (putFlag s.p .z (v == 0#8)) .n (highBit v) := rfl
@[simp] theorem setZN_mem (v : Byte) : (s.setZN v).mem = s.mem := rfl
@[simp] theorem setZN_runState (v : Byte) : (s.setZN v).runState = s.runState := rfl
@[simp] theorem setZN_read8 (v : Byte) (q : Word) : (s.setZN v).read8 q = s.read8 q := rfl
@[simp] theorem setZN_reg (v : Byte) (g : Reg) : (s.setZN v).reg g = s.reg g := by cases g <;> rfl

/-! #### fatal -/

@[simp] theorem fatal_a (r : FatalReason) : (s.fatal r).a = s.a := rfl
@[simp] theorem fatal_x (r : FatalReason) : (s.fatal r).x = s.x := rfl
@[simp] theorem fatal_y (r : FatalReason) : (s.fatal r).y = s.y := rfl
@[simp] theorem fatal_sp (r : FatalReason) : (s.fatal r).sp = s.sp := rfl
@[simp] theorem fatal_pc (r : FatalReason) : (s.fatal r).pc = s.pc := rfl
@[simp] theorem fatal_p (r : FatalReason) : (s.fatal r).p = s.p := rfl
@[simp] theorem fatal_mem (r : FatalReason) : (s.fatal r).mem = s.mem := rfl
@[simp] theorem fatal_runState (r : FatalReason) : (s.fatal r).runState = .faulted r := rfl
@[simp] theorem fatal_flag (r : FatalReason) (g : Flag) : (s.fatal r).flag g = s.flag g := rfl
@[simp] theorem fatal_read8 (r : FatalReason) (q : Word) : (s.fatal r).read8 q = s.read8 q := rfl
@[simp] theorem fatal_reg (r : FatalReason) (g : Reg) : (s.fatal r).reg g = s.reg g := by cases g <;> rfl

/-! #### halt -/

@[simp] theorem halt_a : (s.halt).a = s.a := rfl
@[simp] theorem halt_x : (s.halt).x = s.x := rfl
@[simp] theorem halt_y : (s.halt).y = s.y := rfl
@[simp] theorem halt_sp : (s.halt).sp = s.sp := rfl
@[simp] theorem halt_pc : (s.halt).pc = s.pc := rfl
@[simp] theorem halt_p : (s.halt).p = s.p := rfl
@[simp] theorem halt_mem : (s.halt).mem = s.mem := rfl
@[simp] theorem halt_runState : (s.halt).runState = .halted := rfl
@[simp] theorem halt_flag (g : Flag) : (s.halt).flag g = s.flag g := rfl
@[simp] theorem halt_read8 (q : Word) : (s.halt).read8 q = s.read8 q := rfl
@[simp] theorem halt_reg (g : Reg) : (s.halt).reg g = s.reg g := by cases g <;> rfl

/-! #### hostReset -/

@[simp] theorem hostReset_a : (s.hostReset).a = 0x00#8 := rfl
@[simp] theorem hostReset_x : (s.hostReset).x = 0x00#8 := rfl
@[simp] theorem hostReset_y : (s.hostReset).y = s.y := rfl
@[simp] theorem hostReset_sp : (s.hostReset).sp = Config.spReset := rfl
@[simp] theorem hostReset_pc : (s.hostReset).pc = s.read16 Config.resetVector := rfl
@[simp] theorem hostReset_p : (s.hostReset).p = Config.pReset := rfl
@[simp] theorem hostReset_mem : (s.hostReset).mem = s.mem := rfl
@[simp] theorem hostReset_runState : (s.hostReset).runState = .running := rfl
@[simp] theorem hostReset_read8 (q : Word) : (s.hostReset).read8 q = s.read8 q := rfl

/-! #### push8 -/

@[simp] theorem push8_a (v : Byte) : (s.push8 v).a = s.a := rfl
@[simp] theorem push8_x (v : Byte) : (s.push8 v).x = s.x := rfl
@[simp] theorem push8_y (v : Byte) : (s.push8 v).y = s.y := rfl
@[simp] theorem push8_sp (v : Byte) : (s.push8 v).sp = s.sp - 1#8 := rfl
@[simp] theorem push8_pc (v : Byte) : (s.push8 v).pc = s.pc := rfl
@[simp] theorem push8_p (v : Byte) : (s.push8 v).p = s.p := rfl
@[simp] theorem push8_mem (v : Byte) : (s.push8 v).mem = Memory.write s.mem (stackAddr s.sp).toNat v := rfl
@[simp] theorem push8_runState (v : Byte) : (s.push8 v).runState = s.runState := rfl
@[simp] theorem push8_flag (v : Byte) (g : Flag) : (s.push8 v).flag g = s.flag g := rfl
@[simp] theorem push8_reg (v : Byte) (g : Reg) : (s.push8 v).reg g = s.reg g := by cases g <;> rfl

/-! #### push16 -/

@[simp] theorem push16_a (w : Word) : (s.push16 w).a = s.a := rfl
@[simp] theorem push16_x (w : Word) : (s.push16 w).x = s.x := rfl
@[simp] theorem push16_y (w : Word) : (s.push16 w).y = s.y := rfl
@[simp] theorem push16_sp (w : Word) : (s.push16 w).sp = s.sp - 1#8 - 1#8 := rfl
@[simp] theorem push16_pc (w : Word) : (s.push16 w).pc = s.pc := rfl
@[simp] theorem push16_p (w : Word) : (s.push16 w).p = s.p := rfl
@[simp] theorem push16_mem (w : Word) : (s.push16 w).mem = Memory.write (Memory.write s.mem (stackAddr s.sp).toNat (hiByte w)) (stackAddr (s.sp - 1#8)).toNat (loByte w) := rfl
@[simp] theorem push16_runState (w : Word) : (s.push16 w).runState = s.runState := rfl
@[simp] theorem push16_flag (w : Word) (g : Flag) : (s.push16 w).flag g = s.flag g := rfl
@[simp] theorem push16_reg (w : Word) (g : Reg) : (s.push16 w).reg g = s.reg g := by cases g <;> rfl

/-! #### setReg -/

@[simp] theorem setReg_a_a (v : Byte) : (s.setReg .a v).a = v := rfl
@[simp] theorem setReg_a_x (v : Byte) : (s.setReg .a v).x = s.x := rfl
@[simp] theorem setReg_a_y (v : Byte) : (s.setReg .a v).y = s.y := rfl
@[simp] theorem setReg_a_sp (v : Byte) : (s.setReg .a v).sp = s.sp := rfl
@[simp] theorem setReg_a_pc (v : Byte) : (s.setReg .a v).pc = s.pc := rfl
@[simp] theorem setReg_a_p (v : Byte) : (s.setReg .a v).p = s.p := rfl
@[simp] theorem setReg_a_mem (v : Byte) : (s.setReg .a v).mem = s.mem := rfl
@[simp] theorem setReg_a_runState (v : Byte) : (s.setReg .a v).runState = s.runState := rfl
@[simp] theorem setReg_x_a (v : Byte) : (s.setReg .x v).a = s.a := rfl
@[simp] theorem setReg_x_x (v : Byte) : (s.setReg .x v).x = v := rfl
@[simp] theorem setReg_x_y (v : Byte) : (s.setReg .x v).y = s.y := rfl
@[simp] theorem setReg_x_sp (v : Byte) : (s.setReg .x v).sp = s.sp := rfl
@[simp] theorem setReg_x_pc (v : Byte) : (s.setReg .x v).pc = s.pc := rfl
@[simp] theorem setReg_x_p (v : Byte) : (s.setReg .x v).p = s.p := rfl
@[simp] theorem setReg_x_mem (v : Byte) : (s.setReg .x v).mem = s.mem := rfl
@[simp] theorem setReg_x_runState (v : Byte) : (s.setReg .x v).runState = s.runState := rfl
@[simp] theorem setReg_y_a (v : Byte) : (s.setReg .y v).a = s.a := rfl
@[simp] theorem setReg_y_x (v : Byte) : (s.setReg .y v).x = s.x := rfl
@[simp] theorem setReg_y_y (v : Byte) : (s.setReg .y v).y = v := rfl
@[simp] theorem setReg_y_sp (v : Byte) : (s.setReg .y v).sp = s.sp := rfl
@[simp] theorem setReg_y_pc (v : Byte) : (s.setReg .y v).pc = s.pc := rfl
@[simp] theorem setReg_y_p (v : Byte) : (s.setReg .y v).p = s.p := rfl
@[simp] theorem setReg_y_mem (v : Byte) : (s.setReg .y v).mem = s.mem := rfl
@[simp] theorem setReg_y_runState (v : Byte) : (s.setReg .y v).runState = s.runState := rfl
@[simp] theorem setReg_sp (r : Reg) (v : Byte) : (s.setReg r v).sp = s.sp := by cases r <;> rfl
@[simp] theorem setReg_pc (r : Reg) (v : Byte) : (s.setReg r v).pc = s.pc := by cases r <;> rfl
@[simp] theorem setReg_p (r : Reg) (v : Byte) : (s.setReg r v).p = s.p := by cases r <;> rfl
@[simp] theorem setReg_mem (r : Reg) (v : Byte) : (s.setReg r v).mem = s.mem := by cases r <;> rfl
@[simp] theorem setReg_runState (r : Reg) (v : Byte) : (s.setReg r v).runState = s.runState := by cases r <;> rfl
@[simp] theorem setReg_flag (r : Reg) (v : Byte) (g : Flag) : (s.setReg r v).flag g = s.flag g := by cases r <;> rfl
@[simp] theorem setReg_read8 (r : Reg) (v : Byte) (q : Word) : (s.setReg r v).read8 q = s.read8 q := by cases r <;> rfl
@[simp] theorem reg_setReg_same (r : Reg) (v : Byte) : (s.setReg r v).reg r = v := by cases r <;> rfl
theorem reg_setReg_other (r q : Reg) (v : Byte) (h : q ≠ r) : (s.setReg r v).reg q = s.reg q := by
  cases r <;> cases q <;> first | rfl | exact absurd rfl h

/-! #### reset -/

@[simp] theorem reset_a : State.reset.a = 0x00#8 := rfl
@[simp] theorem reset_x : State.reset.x = 0x00#8 := rfl
@[simp] theorem reset_y : State.reset.y = 0x00#8 := rfl
@[simp] theorem reset_sp : State.reset.sp = Config.spReset := rfl
@[simp] theorem reset_pc : State.reset.pc = 0x0000#16 := rfl
@[simp] theorem reset_p : State.reset.p = Config.pReset := rfl
@[simp] theorem reset_mem : State.reset.mem = [] := rfl
@[simp] theorem reset_runState : State.reset.runState = .running := rfl

/-- Two states with the same eight fields are the same state. -/
theorem state_ext {s t : State} (ha : s.a = t.a) (hx : s.x = t.x) (hy : s.y = t.y) (hsp : s.sp = t.sp) (hpc : s.pc = t.pc)
    (hp : s.p = t.p) (hm : s.mem = t.mem) (hr : s.runState = t.runState) : s = t := by
  cases s
  cases t
  simp_all

end Sys2Proof.Machine
end

