-- ==== Sys2Proof/Laws/Flags.lean ====
section
/-! SUPPORT. The status byte read back flag by flag. -/

namespace Sys2Proof.Machine

@[simp] theorem getFlag_putFlag_same (p : Byte) (f : Flag) (b : Bool) : getFlag (putFlag p f b) f = b := by
  cases f <;> cases b <;> simp [getFlag, putFlag, flagMask, flagBit]

theorem getFlag_putFlag_other (p : Byte) {f g : Flag} (b : Bool) (h : g ≠ f) :
    getFlag (putFlag p f b) g = getFlag p g := by
  cases f <;> cases g <;> first | exact absurd rfl h | (cases b <;> simp [getFlag, putFlag, flagMask, flagBit])

theorem getFlag_putFlag (p : Byte) (f g : Flag) (b : Bool) :
    getFlag (putFlag p f b) g = if g = f then b else getFlag p g := by
  by_cases h : g = f
  · subst h
    simp
  · simp [h, getFlag_putFlag_other p b h]

/-- Two status bytes with the same eight flags are the same byte (10_state.md R15). -/
theorem status_ext {p q : Byte} (h : ∀ f, getFlag p f = getFlag q f) : p = q := by
  apply BitVec.eq_of_getLsbD_eq
  intro i hi
  have h0 := h .c
  have h1 := h .z
  have h2 := h .i
  have h3 := h .d
  have h4 := h .b
  have h5 := h .b2
  have h6 := h .v
  have h7 := h .n
  simp only [getFlag, flagBit] at h0 h1 h2 h3 h4 h5 h6 h7
  interval_cases i <;> assumption

theorem flag_setFlag (s : State) (f g : Flag) (b : Bool) :
    (s.setFlag f b).flag g = if g = f then b else s.flag g :=
  getFlag_putFlag s.p f g b

@[simp] theorem flag_setFlag_same (s : State) (f : Flag) (b : Bool) : (s.setFlag f b).flag f = b :=
  getFlag_putFlag_same s.p f b

theorem flag_setFlag_other (s : State) {f g : Flag} (b : Bool) (h : g ≠ f) : (s.setFlag f b).flag g = s.flag g :=
  getFlag_putFlag_other s.p b h

/-- A flag that the shared rule does not write is kept by it. -/
theorem flag_setZN_other (s : State) (v : Byte) {g : Flag} (hz : g ≠ .z) (hn : g ≠ .n) :
    (s.setZN v).flag g = s.flag g := by
  unfold State.setZN
  rw [flag_setFlag_other _ _ hn, flag_setFlag_other _ _ hz]

@[simp] theorem flag_setZN_z (s : State) (v : Byte) : (s.setZN v).flag .z = (v == 0#8) := by
  unfold State.setZN
  rw [flag_setFlag_other _ _ (by decide), flag_setFlag_same]

@[simp] theorem flag_setZN_n (s : State) (v : Byte) : (s.setZN v).flag .n = highBit v := by
  unfold State.setZN
  rw [flag_setFlag_same]

end Sys2Proof.Machine
end

