-- ==== Sys2Proof/Laws/Memory.lean ====
section
/-! SUPPORT. Memory as a list of cells: a read after a write, and that every operation keeps the canonical form. -/

namespace Sys2Proof.Machine

/-! ### Reading after writing -/

theorem read_cons (c : Host.Cell) (m : Memory) (a : Nat) :
    Memory.read (c :: m) a = if c.1 = a then c.2 else Memory.read m a := rfl

theorem read_erase_same (m : Memory) (a : Nat) : Memory.read (Memory.erase m a) a = Memory.blank := by
  induction m with
  | nil => rfl
  | cons c m ih =>
    by_cases h : c.1 = a
    · simpa [Memory.erase, h] using ih
    · have : Memory.erase (c :: m) a = c :: Memory.erase m a := by simp [Memory.erase, h]
      rw [this, read_cons, if_neg h, ih]

theorem read_erase_other (m : Memory) {a b : Nat} (hab : b ≠ a) :
    Memory.read (Memory.erase m a) b = Memory.read m b := by
  induction m with
  | nil => rfl
  | cons c m ih =>
    by_cases h : c.1 = a
    · have he : Memory.erase (c :: m) a = Memory.erase m a := by simp [Memory.erase, h]
      have : c.1 ≠ b := fun hb => hab (hb.symm.trans h)
      rw [he, ih, read_cons, if_neg this]
    · have he : Memory.erase (c :: m) a = c :: Memory.erase m a := by simp [Memory.erase, h]
      rw [he, read_cons, read_cons, ih]

theorem read_insert_other (m : Memory) {a b : Nat} (v : Byte) (hab : b ≠ a) :
    Memory.read (Memory.insert m a v) b = Memory.read m b := by
  induction m with
  | nil => simp [Memory.insert, Memory.read, hab.symm]
  | cons c m ih =>
    obtain ⟨k, w⟩ := c
    by_cases h : a < k
    · simp [Memory.insert, h, read_cons, hab.symm]
    · simp [Memory.insert, h, read_cons, ih]

theorem read_insert_same (m : Memory) {a : Nat} (v : Byte) (hm : ∀ c ∈ m, c.1 ≠ a) :
    Memory.read (Memory.insert m a v) a = v := by
  induction m with
  | nil => simp [Memory.insert, Memory.read]
  | cons c m ih =>
    obtain ⟨k, w⟩ := c
    have hk : k ≠ a := hm (k, w) (by simp)
    by_cases h : a < k
    · simp [Memory.insert, h, read_cons]
    · simp [Memory.insert, h, read_cons, hk, ih (fun c hc => hm c (by simp [hc]))]

theorem erase_lacks (m : Memory) (a : Nat) : ∀ c ∈ Memory.erase m a, c.1 ≠ a := by
  intro c hc
  simpa using (List.mem_filter.1 hc).2

theorem read_write_same (m : Memory) (a : Nat) (v : Byte) : Memory.read (Memory.write m a v) a = v := by
  unfold Memory.write
  split
  · next h => rw [read_erase_same, h]
  · exact read_insert_same _ _ (erase_lacks m a)

theorem read_write_other (m : Memory) {a b : Nat} (v : Byte) (hab : b ≠ a) :
    Memory.read (Memory.write m a v) b = Memory.read m b := by
  unfold Memory.write
  split
  · exact read_erase_other m hab
  · rw [read_insert_other _ _ hab, read_erase_other m hab]

/-! ### The canonical form -/

theorem wfFrom_cons (lo : Nat) (c : Host.Cell) (m : Memory) :
    Memory.wfFrom lo (c :: m) = true ↔
      lo ≤ c.1 ∧ c.1 < Config.memSize ∧ c.2 ≠ Memory.blank ∧ Memory.wfFrom (c.1 + 1) m = true := by
  obtain ⟨k, v⟩ := c
  simp [Memory.wfFrom, Bool.and_eq_true, and_assoc]

theorem wfFrom_mono {lo lo' : Nat} (h : lo' ≤ lo) {m : Memory} (hm : Memory.wfFrom lo m = true) :
    Memory.wfFrom lo' m = true := by
  cases m with
  | nil => rfl
  | cons c m =>
    rw [wfFrom_cons] at hm ⊢
    exact ⟨h.trans hm.1, hm.2⟩

theorem wfFrom_erase {lo : Nat} {m : Memory} (a : Nat) (hm : Memory.wfFrom lo m = true) :
    Memory.wfFrom lo (Memory.erase m a) = true := by
  induction m generalizing lo with
  | nil => rfl
  | cons c m ih =>
    have hc := (wfFrom_cons lo c m).1 hm
    by_cases h : c.1 = a
    · have he : Memory.erase (c :: m) a = Memory.erase m a := by simp [Memory.erase, h]
      rw [he]
      exact wfFrom_mono (by omega) (ih hc.2.2.2)
    · have he : Memory.erase (c :: m) a = c :: Memory.erase m a := by simp [Memory.erase, h]
      rw [he, wfFrom_cons]
      exact ⟨hc.1, hc.2.1, hc.2.2.1, ih hc.2.2.2⟩

theorem wfFrom_insert {lo : Nat} {m : Memory} {a : Nat} {v : Byte} (hlo : lo ≤ a) (ha : a < Config.memSize)
    (hv : v ≠ Memory.blank) (hm : Memory.wfFrom lo m = true) (hne : ∀ c ∈ m, c.1 ≠ a) :
    Memory.wfFrom lo (Memory.insert m a v) = true := by
  induction m generalizing lo with
  | nil => exact (wfFrom_cons lo (a, v) []).2 ⟨hlo, ha, hv, rfl⟩
  | cons c m ih =>
    obtain ⟨k, w⟩ := c
    have hc := (wfFrom_cons lo (k, w) m).1 hm
    have hk : k ≠ a := hne (k, w) (by simp)
    by_cases h : a < k
    · have hi : Memory.insert ((k, w) :: m) a v = (a, v) :: (k, w) :: m := by simp [Memory.insert, h]
      rw [hi, wfFrom_cons, wfFrom_cons]
      exact ⟨hlo, ha, hv, h, hc.2⟩
    · have hi : Memory.insert ((k, w) :: m) a v = (k, w) :: Memory.insert m a v := by simp [Memory.insert, h]
      rw [hi, wfFrom_cons]
      have hka : k + 1 ≤ a := by omega
      exact ⟨hc.1, hc.2.1, hc.2.2.1, ih hka hc.2.2.2 (fun c hc => hne c (by simp [hc]))⟩

/-- A write inside the address space keeps the canonical form. -/
theorem wf_write {m : Memory} {a : Nat} (v : Byte) (ha : a < Config.memSize) (hm : Memory.wf m = true) :
    Memory.wf (Memory.write m a v) = true := by
  have he := wfFrom_erase a hm
  unfold Memory.write
  split
  · exact he
  · next hv => exact wfFrom_insert (Nat.zero_le a) ha hv he (erase_lacks m a)

/-! ### Through the state -/

/-- An address is inside the address space: no access can be out of range (20_memory.md R45). -/
theorem addr_in_range (addr : Word) : addr.toNat < Config.memSize := addr.isLt

theorem read8_write8 (s : State) (addr q : Word) (v : Byte) :
    (s.write8 addr v).read8 q = if q = addr then v else s.read8 q := by
  by_cases h : q = addr
  · subst h
    simp [State.read8, read_write_same]
  · have hn : q.toNat ≠ addr.toNat := fun hq => h (BitVec.eq_of_toNat_eq hq)
    simp [State.read8, h, read_write_other _ _ hn]

@[simp] theorem read8_write8_same (s : State) (addr : Word) (v : Byte) : (s.write8 addr v).read8 addr = v := by
  simp [read8_write8]

theorem read8_write8_other (s : State) {addr q : Word} (v : Byte) (h : q ≠ addr) :
    (s.write8 addr v).read8 q = s.read8 q := by
  simp [read8_write8, h]

theorem wf_write8 {s : State} (addr : Word) (v : Byte) (h : s.mem.wf = true) : (s.write8 addr v).mem.wf = true :=
  wf_write v (addr_in_range addr) h

theorem wf_push8 {s : State} (v : Byte) (h : s.mem.wf = true) : (s.push8 v).mem.wf = true :=
  wf_write8 (stackAddr s.sp) v h

theorem wf_push16 {s : State} (w : Word) (h : s.mem.wf = true) : (s.push16 w).mem.wf = true :=
  wf_push8 _ (wf_push8 _ h)

theorem wf_write16 {s : State} (addr w : Word) (h : s.mem.wf = true) : (s.write16 addr w).mem.wf = true :=
  wf_write8 _ _ (wf_write8 _ _ h)

end Sys2Proof.Machine
end

