-- ==== Sys2Proof/Laws/Ops.lean ====
section
/-! SUPPORT. What each shared operation can do, said once: bytes and words, the stack primitives, the sequencer, the
fetch. -/

namespace Sys2Proof.Machine

/-! ### Bytes and words -/

theorem joinBytes_toNat (hi lo : Byte) : (joinBytes hi lo).toNat = hi.toNat * 256 + lo.toNat := by
  have hlo : lo.toNat < 2 ^ 8 := lo.isLt
  rw [joinBytes, BitVec.toNat_append, ← Nat.shiftLeft_add_eq_or_of_lt hlo, Nat.shiftLeft_eq]

theorem loByte_toNat (w : Word) : (loByte w).toNat = w.toNat % 256 := by simp [loByte]

theorem hiByte_toNat (w : Word) : (hiByte w).toNat = w.toNat / 256 := by
  have := w.isLt
  simp [hiByte, Nat.shiftRight_eq_div_pow]
  omega

@[simp] theorem loByte_joinBytes (hi lo : Byte) : loByte (joinBytes hi lo) = lo := by
  have := lo.isLt
  apply BitVec.eq_of_toNat_eq
  rw [loByte_toNat, joinBytes_toNat]
  omega

@[simp] theorem hiByte_joinBytes (hi lo : Byte) : hiByte (joinBytes hi lo) = hi := by
  have := lo.isLt
  apply BitVec.eq_of_toNat_eq
  rw [hiByte_toNat, joinBytes_toNat]
  omega

@[simp] theorem joinBytes_hi_lo (w : Word) : joinBytes (hiByte w) (loByte w) = w := by
  apply BitVec.eq_of_toNat_eq
  rw [joinBytes_toNat, loByte_toNat, hiByte_toNat]
  omega

/-- An address and the one after it are different cells. -/
theorem addr_succ_ne (a : Word) : a + 1#16 ≠ a := by
  intro h
  have : (a + 1#16 : Word) - a = a - a := by rw [h]
  simp at this

/-! ### The stack -/

theorem stackAddr_toNat (sp : Byte) : (stackAddr sp).toNat = 256 + sp.toNat := by
  have := sp.isLt
  simp only [stackAddr, Config.stackBase, BitVec.toNat_add, BitVec.toNat_setWidth, BitVec.toNat_ofNat]
  omega

/-- Different values of SP designate different cells (R90). -/
theorem stackAddr_inj {p q : Byte} (h : stackAddr p = stackAddr q) : p = q := by
  have hn := congrArg BitVec.toNat h
  rw [stackAddr_toNat, stackAddr_toNat] at hn
  exact BitVec.eq_of_toNat_eq (by omega)

/-- A value of SP and the one below it designate different cells, 0x0100 and 0x01FF among them. -/
theorem stackAddr_pred_ne (sp : Byte) : stackAddr (sp - 1#8) ≠ stackAddr sp := by
  intro h
  have hp := stackAddr_inj h
  have : (sp - 1#8 : Byte) - sp = sp - sp := by rw [hp]
  simp [BitVec.sub_eq_add_neg] at this

/-- What memory holds after a push: the byte in the cell SP designated, every other cell as before. -/
theorem read8_push8 (s : State) (v : Byte) (q : Word) :
    (s.push8 v).read8 q = if q = stackAddr s.sp then v else s.read8 q :=
  read8_write8 s (stackAddr s.sp) q v

/-- What memory holds after a word is pushed. -/
theorem read8_push16 (s : State) (w : Word) (q : Word) :
    (s.push16 w).read8 q =
      if q = stackAddr (s.sp - 1#8) then loByte w else if q = stackAddr s.sp then hiByte w else s.read8 q := by
  unfold State.push16
  rw [read8_push8, read8_push8]
  rfl

theorem read8_write16 (s : State) (addr w q : Word) :
    (s.write16 addr w).read8 q =
      if q = addr + 1#16 then hiByte w else if q = addr then loByte w else s.read8 q := by
  unfold State.write16
  rw [read8_write8, read8_write8]

theorem pop8_fst (s : State) : s.pop8.1 = s.read8 (stackAddr (s.sp + 1#8)) := rfl

theorem pop8_snd (s : State) : s.pop8.2 = s.setSp (s.sp + 1#8) := rfl

theorem pop16_fst (s : State) :
    s.pop16.1 = joinBytes (s.read8 (stackAddr (s.sp + 1#8 + 1#8))) (s.read8 (stackAddr (s.sp + 1#8))) := rfl

theorem pop16_snd (s : State) : s.pop16.2 = (s.setSp (s.sp + 1#8)).setSp (s.sp + 1#8 + 1#8) := rfl

/-! ### The sequencer -/

@[simp] theorem sequence_ran (len : Nat) (s t : State) :
    sequence len s (.ran t) = .next (t.setPc (s.pc + BitVec.ofNat 16 len)) := rfl

@[simp] theorem sequence_wrotePc (len : Nat) (s t : State) : sequence len s (.wrotePc t) = .next t := rfl

@[simp] theorem sequence_noAddress (len : Nat) (s : State) :
    sequence len s .noAddress = .next (s.fatal .invalidAddressingMode) := rfl

/-- Everything the sequencer can answer: always a next state. -/
theorem sequence_next (len : Nat) (s : State) (h : Handled) :
    (∃ t, h = .ran t ∧ sequence len s h = .next (t.setPc (s.pc + BitVec.ofNat 16 len))) ∨
    (∃ t, h = .wrotePc t ∧ sequence len s h = .next t) ∨
    (h = .noAddress ∧ sequence len s h = .next (s.fatal .invalidAddressingMode)) := by
  cases h with
  | ran t => exact .inl ⟨t, rfl, rfl⟩
  | wrotePc t => exact .inr (.inl ⟨t, rfl, rfl⟩)
  | noAddress => exact .inr (.inr ⟨rfl, rfl⟩)

/-! ### Fetch and step -/

/-- Everything a step can do. -/
theorem step_cases (s : State) :
    (s.runState = .halted ∧ step s = .fault .coreHalted) ∨
    (∃ r, s.runState = .faulted r ∧ step s = .fault (.coreFaulted r)) ∨
    (∃ i, s.runState = .running ∧ fetchDecode s = some i ∧ step s = exec i (pastOpcode s)) ∨
    (s.runState = .running ∧ fetchDecode s = none ∧ step s = .next (illegalOutcome s)) := by
  unfold step
  cases hr : s.runState with
  | halted => exact .inl ⟨rfl, rfl⟩
  | faulted r => exact .inr (.inl ⟨r, rfl, rfl⟩)
  | running =>
    cases hd : fetchDecode s with
    | some i => exact .inr (.inr (.inl ⟨i, rfl, rfl, rfl⟩))
    | none => exact .inr (.inr (.inr ⟨rfl, rfl, rfl⟩))

@[simp] theorem pastOpcode_pc (s : State) : (pastOpcode s).pc = s.pc + 1#16 := rfl

@[simp] theorem pastOpcode_read8 (s : State) (q : Word) : (pastOpcode s).read8 q = s.read8 q := rfl

/-- Writing bytes touches memory only, and keeps its canonical form. -/
theorem writeBytes_frame (bytes : List Byte) (addr : Word) (s : State) :
    ∃ m, writeBytes bytes addr s = { s with mem := m } ∧ (s.mem.wf = true → Memory.wf m = true) := by
  induction bytes generalizing addr s with
  | nil => exact ⟨s.mem, rfl, id⟩
  | cons b bytes ih =>
    obtain ⟨m, hm, hwf⟩ := ih (addr + 1#16) (s.write8 addr b)
    exact ⟨m, hm, fun h => hwf (wf_write8 addr b h)⟩

end Sys2Proof.Machine
end

