-- ==== Sys2Proof/Laws/Operands.lean ====
section
/-! SUPPORT. The resolver and the shapes of a meaning: one lemma for each, saying what it answers. -/

namespace Sys2Proof.Machine

/-- The resolver fails on NoneAddressing and on nothing else (40_dispatch_and_addressing.md R82). -/
theorem ea_isSome (m : AddrMode) (s : State) (h : m ≠ .noneAddressing) : ∃ addr, ea m s = some addr := by
  cases m <;> first | exact ⟨_, rfl⟩ | exact absurd rfl h

theorem operandByte_isSome (m : AddrMode) (s : State) (h : m ≠ .noneAddressing) : ∃ v, operandByte m s = some v := by
  cases m <;> first | exact ⟨_, rfl⟩ | exact absurd rfl h

theorem readForm_next {m : AddrMode} {v : Byte} (effect : Byte → State → State) {s : State}
    (h : operandByte m s = some v) :
    readForm m effect s = .next ((effect v s).setPc (s.pc + BitVec.ofNat 16 (addrModeLength m))) := by
  simp [readForm, h]

theorem storeForm_next {m : AddrMode} {addr : Word} (value : State → Byte) {s : State} (h : ea m s = some addr) :
    storeForm m value s =
      .next ((s.write8 addr (value s)).setPc (s.pc + BitVec.ofNat 16 (addrModeLength m))) := by
  simp [storeForm, h]

theorem modifyForm_next {m : AddrMode} {addr : Word} (result : Byte → State → Byte) (flags : Byte → State → State)
    {s : State} (h : ea m s = some addr) :
    modifyForm m result flags s =
      .next (((flags (s.read8 addr) s).write8 addr (result (s.read8 addr) s)).setPc
        (s.pc + BitVec.ofNat 16 (addrModeLength m))) := by
  simp [modifyForm, h]

theorem readForm_noAddress (effect : Byte → State → State) (s : State) :
    readForm .noneAddressing effect s = .next (s.fatal .invalidAddressingMode) := rfl

theorem accumulatorForm_next (result : Byte → State → Byte) (flags : Byte → State → State) (s : State) :
    accumulatorForm result flags s =
      .next (((flags s.a s).setReg .a (result s.a s)).setPc (s.pc + BitVec.ofNat 16 0)) := rfl

theorem impliedForm_next (effect : State → State) (s : State) :
    impliedForm effect s = .next ((effect s).setPc (s.pc + BitVec.ofNat 16 0)) := rfl

/-- A branch answers the target when its condition holds and the next instruction when not (45_flags_branch.md R142). -/
theorem branchForm_next (condition : State → Bool) (r : Byte) (s : State) :
    branchForm condition r s = .next (s.setPc (if condition s then s.pc + 1#16 + sext16 r else s.pc + 1#16)) := by
  unfold branchForm branchHandled
  cases condition s <;> rfl

/-! ### What the effects of the families leave alone -/

/-- A state that differs from s at most in A, X, Y, PC and the flags C, Z, V, N: no store, no SP, no inert flag. -/
structure OnlyRegsAndFlags (s t : State) : Prop where
  sp       : t.sp = s.sp
  mem      : t.mem = s.mem
  runState : t.runState = s.runState
  inert    : ∀ f, f ≠ .c → f ≠ .z → f ≠ .v → f ≠ .n → t.flag f = s.flag f

theorem onlyRegsAndFlags_refl (s : State) : OnlyRegsAndFlags s s := ⟨rfl, rfl, rfl, fun _ _ _ _ _ => rfl⟩

theorem onlyRegsAndFlags_setZN {s t : State} (h : OnlyRegsAndFlags s t) (v : Byte) : OnlyRegsAndFlags s (t.setZN v) :=
  ⟨h.sp, h.mem, h.runState, fun f hc hz hv hn => (flag_setZN_other t v hz hn).trans (h.inert f hc hz hv hn)⟩

theorem onlyRegsAndFlags_setReg {s t : State} (h : OnlyRegsAndFlags s t) (r : Reg) (v : Byte) :
    OnlyRegsAndFlags s (t.setReg r v) :=
  ⟨by simp [h.sp], by simp [h.mem], by simp [h.runState], fun f hc hz hv hn => by simp [h.inert f hc hz hv hn]⟩

theorem onlyRegsAndFlags_setFlag {s t : State} (h : OnlyRegsAndFlags s t) {f : Flag} (b : Bool)
    (hf : f = .c ∨ f = .z ∨ f = .v ∨ f = .n) : OnlyRegsAndFlags s (t.setFlag f b) := by
  refine ⟨h.sp, h.mem, h.runState, fun g hc hz hv hn => ?_⟩
  have hg : g ≠ f := by
    rintro rfl
    rcases hf with h | h | h | h
    exacts [hc h, hz h, hv h, hn h]
  exact (flag_setFlag_other t b hg).trans (h.inert g hc hz hv hn)

theorem onlyRegsAndFlags_setPc {s t : State} (h : OnlyRegsAndFlags s t) (w : Word) : OnlyRegsAndFlags s (t.setPc w) :=
  ⟨h.sp, h.mem, h.runState, h.inert⟩

end Sys2Proof.Machine
end

