-- ==== Sys2Proof/Laws/Effects.lean ====
section
/-! SUPPORT. What each effect of the instruction families does, said once: which registers and flags it writes, and that
it leaves the rest alone. -/

namespace Sys2Proof.Machine

/-! ### Nothing but registers A, X, Y and flags C, Z, V, N -/

theorem loadReg_only (r : Reg) (v : Byte) (s : State) : OnlyRegsAndFlags s (loadReg r v s) :=
  onlyRegsAndFlags_setZN (onlyRegsAndFlags_setReg (onlyRegsAndFlags_refl s) r v) v

theorem transferReg_only (src dst : Reg) (s : State) : OnlyRegsAndFlags s (transferReg src dst s) :=
  onlyRegsAndFlags_setZN (onlyRegsAndFlags_setReg (onlyRegsAndFlags_refl s) dst _) _

theorem addToA_only (v : Byte) (s : State) : OnlyRegsAndFlags s (addToA v s) :=
  onlyRegsAndFlags_setZN (onlyRegsAndFlags_setReg (onlyRegsAndFlags_setFlag (onlyRegsAndFlags_setFlag
    (onlyRegsAndFlags_refl s) _ (.inl rfl)) _ (.inr (.inr (.inl rfl)))) .a _) _

theorem andToA_only (v : Byte) (s : State) : OnlyRegsAndFlags s (andToA v s) :=
  onlyRegsAndFlags_setZN (onlyRegsAndFlags_setFlag (onlyRegsAndFlags_setReg (onlyRegsAndFlags_refl s) .a _) _
    (.inr (.inl rfl))) _

theorem orToA_only (v : Byte) (s : State) : OnlyRegsAndFlags s (orToA v s) :=
  onlyRegsAndFlags_setZN (onlyRegsAndFlags_setReg (onlyRegsAndFlags_refl s) .a _) _

theorem aslFlags_only (v : Byte) (s : State) : OnlyRegsAndFlags s (aslFlags v s) :=
  onlyRegsAndFlags_setZN (onlyRegsAndFlags_setFlag (onlyRegsAndFlags_refl s) _ (.inl rfl)) _

theorem rolFlags_only (v : Byte) (s : State) : OnlyRegsAndFlags s (rolFlags v s) :=
  onlyRegsAndFlags_setZN (onlyRegsAndFlags_setFlag (onlyRegsAndFlags_refl s) _ (.inl rfl)) _

theorem lsrFlags_only (v : Byte) (s : State) : OnlyRegsAndFlags s (lsrFlags v s) := by
  have h : OnlyRegsAndFlags s (s.setFlag .c (highBit v)) :=
    onlyRegsAndFlags_setFlag (onlyRegsAndFlags_refl s) _ (.inl rfl)
  unfold lsrFlags
  split
  · exact onlyRegsAndFlags_setZN h _
  · exact h

theorem incX_only (s : State) : OnlyRegsAndFlags s (incX s) :=
  onlyRegsAndFlags_setZN (onlyRegsAndFlags_setReg (onlyRegsAndFlags_refl s) .x _) _

theorem decX_only (s : State) : OnlyRegsAndFlags s (decX s) :=
  onlyRegsAndFlags_setZN (onlyRegsAndFlags_setReg (onlyRegsAndFlags_refl s) .x _) _

theorem incFlags_only (v : Byte) (s : State) : OnlyRegsAndFlags s (incFlags v s) :=
  onlyRegsAndFlags_setZN (onlyRegsAndFlags_refl s) _

theorem decFlags_only (v : Byte) (s : State) : OnlyRegsAndFlags s (decFlags v s) :=
  onlyRegsAndFlags_setZN (onlyRegsAndFlags_refl s) _

theorem compareReg_only (r : Reg) (v : Byte) (s : State) : OnlyRegsAndFlags s (compareReg r v s) :=
  onlyRegsAndFlags_setZN (onlyRegsAndFlags_setFlag (onlyRegsAndFlags_refl s) _ (.inl rfl)) _

theorem bitTest_only (v : Byte) (s : State) : OnlyRegsAndFlags s (bitTest v s) :=
  onlyRegsAndFlags_setFlag (onlyRegsAndFlags_setFlag (onlyRegsAndFlags_setFlag (onlyRegsAndFlags_refl s) _
    (.inr (.inl rfl))) _ (.inr (.inr (.inl rfl)))) _ (.inr (.inr (.inr rfl)))

theorem putCarry_only (b : Bool) (s : State) : OnlyRegsAndFlags s (putCarry b s) :=
  onlyRegsAndFlags_setFlag (onlyRegsAndFlags_refl s) _ (.inl rfl)

/-! ### The flag-only effects keep the registers -/

@[simp] theorem aslFlags_reg (v : Byte) (s : State) (r : Reg) : (aslFlags v s).reg r = s.reg r := by
  cases r <;> rfl

@[simp] theorem rolFlags_reg (v : Byte) (s : State) (r : Reg) : (rolFlags v s).reg r = s.reg r := by
  cases r <;> rfl

@[simp] theorem lsrFlags_reg (v : Byte) (s : State) (r : Reg) : (lsrFlags v s).reg r = s.reg r := by
  cases r <;> rfl

@[simp] theorem incFlags_reg (v : Byte) (s : State) (r : Reg) : (incFlags v s).reg r = s.reg r := by
  cases r <;> rfl

@[simp] theorem decFlags_reg (v : Byte) (s : State) (r : Reg) : (decFlags v s).reg r = s.reg r := by
  cases r <;> rfl

@[simp] theorem compareReg_reg (r : Reg) (v : Byte) (s : State) (g : Reg) : (compareReg r v s).reg g = s.reg g := by
  cases g <;> rfl

@[simp] theorem bitTest_reg (v : Byte) (s : State) (r : Reg) : (bitTest v s).reg r = s.reg r := by
  cases r <;> rfl

@[simp] theorem putCarry_reg (b : Bool) (s : State) (r : Reg) : (putCarry b s).reg r = s.reg r := by
  cases r <;> rfl

/-! ### JSR's operand bytes -/

theorem jsrPushed_read8 (s : State) (q : Word) :
    (jsrPushed s).read8 q =
      if q = stackAddr (s.sp - 1#8) then loByte (s.pc + 1#16) else if q = stackAddr s.sp then hiByte (s.pc + 1#16)
      else s.read8 q :=
  read8_push16 s (s.pc + 1#16) q

/-- An operand byte of JSR that is what memory held reads, after the pushes, as what memory then holds. -/
theorem jsrOperandByte_of_fetched (s : State) (addr : Word) :
    jsrOperandByte addr (s.read8 addr) s = (jsrPushed s).read8 addr := by
  unfold jsrOperandByte
  split
  · rfl
  · next h =>
    have h' : ¬ addr ∈ jsrCells s := by simpa using h
    have h1 : addr ≠ stackAddr s.sp := fun e => h' (by simp [jsrCells, e])
    have h2 : addr ≠ stackAddr (s.sp - 1#8) := fun e => h' (by simp [jsrCells, e])
    rw [jsrPushed_read8, if_neg h2, if_neg h1]

/-- An operand byte of JSR that no push lands on is the byte that was fetched. -/
theorem jsrOperandByte_of_notMem {s : State} {addr : Word} (fetched : Byte) (h : addr ∉ jsrCells s) :
    jsrOperandByte addr fetched s = fetched := by
  simp [jsrOperandByte, h]

/-- Without overlap the target of JSR is its operand. -/
theorem jsrTarget_of_disjoint (a : Word) (s : State) (h0 : s.pc ∉ jsrCells s) (h1 : s.pc + 1#16 ∉ jsrCells s) :
    jsrTarget a s = a := by
  rw [jsrTarget, jsrOperandByte_of_notMem _ h0, jsrOperandByte_of_notMem _ h1, joinBytes_hi_lo]

end Sys2Proof.Machine
end

