-- ==== Sys2Proof/Laws/Exec.lean ====
section
/-! SUPPORT. What an instruction can do, said once: every constructor of Instr has one of ten shapes. Whole-machine rules and
invariants are proved from exec_shape, not by unfolding the meanings again. -/

namespace Sys2Proof.Machine

/-- The instruction reads one operand byte and writes registers and flags. -/
def ReadShape (i : Instr) : Prop :=
  ∃ m f, m ≠ AddrMode.noneAddressing ∧ (∀ v s, OnlyRegsAndFlags s (f v s)) ∧ ∀ s, exec i s = readForm m f s

/-- The instruction stores A. -/
def StoreShape (i : Instr) : Prop := ∃ m, m ≠ AddrMode.noneAddressing ∧ ∀ s, exec i s = storeForm m State.a s

/-- The instruction rewrites one memory cell and writes flags, no register. -/
def ModifyShape (i : Instr) : Prop :=
  ∃ m result flags, m ≠ AddrMode.noneAddressing ∧
    (∀ v s, OnlyRegsAndFlags s (flags v s) ∧ ∀ r, (flags v s).reg r = s.reg r) ∧
    ∀ s, exec i s = modifyForm m result flags s

/-- The instruction reads no operand and writes registers and flags. -/
def ImpliedShape (i : Instr) : Prop := ∃ f, (∀ s, OnlyRegsAndFlags s (f s)) ∧ ∀ s, exec i s = impliedForm f s

/-- The instruction branches on one condition. -/
def BranchShape (i : Instr) : Prop := ∃ condition r, ∀ s, exec i s = branchForm condition r s

/-- One of the shapes, or one of the five instructions with a meaning of their own. -/
def Shape (i : Instr) : Prop :=
  ReadShape i ∨ StoreShape i ∨ ModifyShape i ∨ ImpliedShape i ∨ BranchShape i ∨
  (∃ a, i = .jmpAbs a) ∨ (∃ a, i = .jsrAbs a) ∨ i = .rts ∨ i = .php ∨ i = .halt

theorem shape_read {i : Instr} (m : AddrMode) {f : Byte → State → State} (hm : m ≠ .noneAddressing)
    (hf : ∀ v s, OnlyRegsAndFlags s (f v s)) (h : ∀ s, exec i s = readForm m f s) : Shape i :=
  .inl ⟨m, f, hm, hf, h⟩

theorem shape_store {i : Instr} (m : AddrMode) (hm : m ≠ .noneAddressing)
    (h : ∀ s, exec i s = storeForm m State.a s) : Shape i :=
  .inr (.inl ⟨m, hm, h⟩)

theorem shape_modify {i : Instr} (m : AddrMode) (result : Byte → State → Byte) {flags : Byte → State → State}
    (hm : m ≠ .noneAddressing) (hf : ∀ v s, OnlyRegsAndFlags s (flags v s))
    (hr : ∀ v s r, (flags v s).reg r = s.reg r) (h : ∀ s, exec i s = modifyForm m result flags s) : Shape i :=
  .inr (.inr (.inl ⟨m, result, flags, hm, fun v s => ⟨hf v s, hr v s⟩, h⟩))

theorem shape_implied {i : Instr} {f : State → State} (hf : ∀ s, OnlyRegsAndFlags s (f s))
    (h : ∀ s, exec i s = impliedForm f s) : Shape i :=
  .inr (.inr (.inr (.inl ⟨f, hf, h⟩)))

theorem shape_accumulator {i : Instr} (result : Byte → State → Byte) {flags : Byte → State → State}
    (hf : ∀ v s, OnlyRegsAndFlags s (flags v s)) (h : ∀ s, exec i s = accumulatorForm result flags s) : Shape i :=
  shape_implied (fun s => onlyRegsAndFlags_setReg (hf s.a s) .a (result s.a s)) h

theorem shape_branch {i : Instr} (condition : State → Bool) (r : Byte)
    (h : ∀ s, exec i s = branchForm condition r s) : Shape i :=
  .inr (.inr (.inr (.inr (.inl ⟨condition, r, h⟩))))

/-- Every instruction has one of the shapes. -/
theorem exec_shape (i : Instr) : Shape i := by
  cases i with
  | ldaImm d => exact shape_read (.immediate d) (by simp) (loadReg_only .a) (fun _ => rfl)
  | ldaZp d => exact shape_read (.zeroPage d) (by simp) (loadReg_only .a) (fun _ => rfl)
  | ldaZpX d => exact shape_read (.zeroPageX d) (by simp) (loadReg_only .a) (fun _ => rfl)
  | ldaAbs a => exact shape_read (.absolute a) (by simp) (loadReg_only .a) (fun _ => rfl)
  | ldaAbsX a => exact shape_read (.absoluteX a) (by simp) (loadReg_only .a) (fun _ => rfl)
  | ldaAbsY a => exact shape_read (.absoluteY a) (by simp) (loadReg_only .a) (fun _ => rfl)
  | ldaIndX d => exact shape_read (.indirectX d) (by simp) (loadReg_only .a) (fun _ => rfl)
  | ldaIndY d => exact shape_read (.indirectY d) (by simp) (loadReg_only .a) (fun _ => rfl)
  | ldxImm d => exact shape_read (.immediate d) (by simp) (loadReg_only .x) (fun _ => rfl)
  | ldxZp d => exact shape_read (.zeroPage d) (by simp) (loadReg_only .x) (fun _ => rfl)
  | ldxZpY d => exact shape_read (.zeroPageY d) (by simp) (loadReg_only .x) (fun _ => rfl)
  | ldxAbs a => exact shape_read (.absolute a) (by simp) (loadReg_only .x) (fun _ => rfl)
  | ldxAbsY a => exact shape_read (.absoluteY a) (by simp) (loadReg_only .x) (fun _ => rfl)
  | ldyImm d => exact shape_read (.immediate d) (by simp) (loadReg_only .y) (fun _ => rfl)
  | ldyZp d => exact shape_read (.zeroPage d) (by simp) (loadReg_only .y) (fun _ => rfl)
  | ldyZpX d => exact shape_read (.zeroPageX d) (by simp) (loadReg_only .y) (fun _ => rfl)
  | ldyAbs a => exact shape_read (.absolute a) (by simp) (loadReg_only .y) (fun _ => rfl)
  | ldyAbsX a => exact shape_read (.absoluteX a) (by simp) (loadReg_only .y) (fun _ => rfl)
  | staZp d => exact shape_store (.zeroPage d) (by simp) (fun _ => rfl)
  | staZpX d => exact shape_store (.zeroPageX d) (by simp) (fun _ => rfl)
  | staAbs a => exact shape_store (.absolute a) (by simp) (fun _ => rfl)
  | staAbsX a => exact shape_store (.absoluteX a) (by simp) (fun _ => rfl)
  | staAbsY a => exact shape_store (.absoluteY a) (by simp) (fun _ => rfl)
  | staIndX d => exact shape_store (.indirectX d) (by simp) (fun _ => rfl)
  | staIndY d => exact shape_store (.indirectY d) (by simp) (fun _ => rfl)
  | tax => exact shape_implied (transferReg_only .a .x) (fun _ => rfl)
  | txa => exact shape_implied (transferReg_only .x .a) (fun _ => rfl)
  | adcImm d => exact shape_read (.immediate d) (by simp) (addToA_only) (fun _ => rfl)
  | adcZp d => exact shape_read (.zeroPage d) (by simp) (addToA_only) (fun _ => rfl)
  | adcZpX d => exact shape_read (.zeroPageX d) (by simp) (addToA_only) (fun _ => rfl)
  | adcAbs a => exact shape_read (.absolute a) (by simp) (addToA_only) (fun _ => rfl)
  | adcAbsX a => exact shape_read (.absoluteX a) (by simp) (addToA_only) (fun _ => rfl)
  | adcAbsY a => exact shape_read (.absoluteY a) (by simp) (addToA_only) (fun _ => rfl)
  | adcIndX d => exact shape_read (.indirectX d) (by simp) (addToA_only) (fun _ => rfl)
  | adcIndY d => exact shape_read (.indirectY d) (by simp) (addToA_only) (fun _ => rfl)
  | andImm d => exact shape_read (.immediate d) (by simp) (andToA_only) (fun _ => rfl)
  | andZp d => exact shape_read (.zeroPage d) (by simp) (andToA_only) (fun _ => rfl)
  | andZpX d => exact shape_read (.zeroPageX d) (by simp) (andToA_only) (fun _ => rfl)
  | andAbs a => exact shape_read (.absolute a) (by simp) (andToA_only) (fun _ => rfl)
  | andAbsX a => exact shape_read (.absoluteX a) (by simp) (andToA_only) (fun _ => rfl)
  | andAbsY a => exact shape_read (.absoluteY a) (by simp) (andToA_only) (fun _ => rfl)
  | andIndX d => exact shape_read (.indirectX d) (by simp) (andToA_only) (fun _ => rfl)
  | andIndY d => exact shape_read (.indirectY d) (by simp) (andToA_only) (fun _ => rfl)
  | oraImm d => exact shape_read (.immediate d) (by simp) (orToA_only) (fun _ => rfl)
  | oraZp d => exact shape_read (.zeroPage d) (by simp) (orToA_only) (fun _ => rfl)
  | oraZpX d => exact shape_read (.zeroPageX d) (by simp) (orToA_only) (fun _ => rfl)
  | oraAbs a => exact shape_read (.absolute a) (by simp) (orToA_only) (fun _ => rfl)
  | oraAbsX a => exact shape_read (.absoluteX a) (by simp) (orToA_only) (fun _ => rfl)
  | oraAbsY a => exact shape_read (.absoluteY a) (by simp) (orToA_only) (fun _ => rfl)
  | oraIndX d => exact shape_read (.indirectX d) (by simp) (orToA_only) (fun _ => rfl)
  | oraIndY d => exact shape_read (.indirectY d) (by simp) (orToA_only) (fun _ => rfl)
  | aslAcc => exact shape_accumulator aslByte aslFlags_only (fun _ => rfl)
  | aslZp d => exact shape_modify (.zeroPage d) aslByte (by simp) aslFlags_only aslFlags_reg (fun _ => rfl)
  | aslZpX d => exact shape_modify (.zeroPageX d) aslByte (by simp) aslFlags_only aslFlags_reg (fun _ => rfl)
  | aslAbs a => exact shape_modify (.absolute a) aslByte (by simp) aslFlags_only aslFlags_reg (fun _ => rfl)
  | aslAbsX a => exact shape_modify (.absoluteX a) aslByte (by simp) aslFlags_only aslFlags_reg (fun _ => rfl)
  | rolAcc => exact shape_accumulator rolByte rolFlags_only (fun _ => rfl)
  | rolZp d => exact shape_modify (.zeroPage d) rolByte (by simp) rolFlags_only rolFlags_reg (fun _ => rfl)
  | rolZpX d => exact shape_modify (.zeroPageX d) rolByte (by simp) rolFlags_only rolFlags_reg (fun _ => rfl)
  | rolAbs a => exact shape_modify (.absolute a) rolByte (by simp) rolFlags_only rolFlags_reg (fun _ => rfl)
  | rolAbsX a => exact shape_modify (.absoluteX a) rolByte (by simp) rolFlags_only rolFlags_reg (fun _ => rfl)
  | lsrAcc => exact shape_accumulator lsrByte lsrFlags_only (fun _ => rfl)
  | inx => exact shape_implied (incX_only) (fun _ => rfl)
  | dex => exact shape_implied (decX_only) (fun _ => rfl)
  | incZp d => exact shape_modify (.zeroPage d) incByte (by simp) incFlags_only incFlags_reg (fun _ => rfl)
  | incZpX d => exact shape_modify (.zeroPageX d) incByte (by simp) incFlags_only incFlags_reg (fun _ => rfl)
  | incAbs a => exact shape_modify (.absolute a) incByte (by simp) incFlags_only incFlags_reg (fun _ => rfl)
  | incAbsX a => exact shape_modify (.absoluteX a) incByte (by simp) incFlags_only incFlags_reg (fun _ => rfl)
  | decZp d => exact shape_modify (.zeroPage d) decByte (by simp) decFlags_only decFlags_reg (fun _ => rfl)
  | decZpX d => exact shape_modify (.zeroPageX d) decByte (by simp) decFlags_only decFlags_reg (fun _ => rfl)
  | decAbs a => exact shape_modify (.absolute a) decByte (by simp) decFlags_only decFlags_reg (fun _ => rfl)
  | decAbsX a => exact shape_modify (.absoluteX a) decByte (by simp) decFlags_only decFlags_reg (fun _ => rfl)
  | cmpImm d => exact shape_read (.immediate d) (by simp) (compareReg_only .a) (fun _ => rfl)
  | cmpZp d => exact shape_read (.zeroPage d) (by simp) (compareReg_only .a) (fun _ => rfl)
  | cmpZpX d => exact shape_read (.zeroPageX d) (by simp) (compareReg_only .a) (fun _ => rfl)
  | cmpAbs a => exact shape_read (.absolute a) (by simp) (compareReg_only .a) (fun _ => rfl)
  | cmpAbsX a => exact shape_read (.absoluteX a) (by simp) (compareReg_only .a) (fun _ => rfl)
  | cmpAbsY a => exact shape_read (.absoluteY a) (by simp) (compareReg_only .a) (fun _ => rfl)
  | cmpIndX d => exact shape_read (.indirectX d) (by simp) (compareReg_only .a) (fun _ => rfl)
  | cmpIndY d => exact shape_read (.indirectY d) (by simp) (compareReg_only .a) (fun _ => rfl)
  | cpxImm d => exact shape_read (.immediate d) (by simp) (compareReg_only .x) (fun _ => rfl)
  | cpxZp d => exact shape_read (.zeroPage d) (by simp) (compareReg_only .x) (fun _ => rfl)
  | cpxAbs a => exact shape_read (.absolute a) (by simp) (compareReg_only .x) (fun _ => rfl)
  | cpyImm d => exact shape_read (.immediate d) (by simp) (compareReg_only .y) (fun _ => rfl)
  | cpyZp d => exact shape_read (.zeroPage d) (by simp) (compareReg_only .y) (fun _ => rfl)
  | cpyAbs a => exact shape_read (.absolute a) (by simp) (compareReg_only .y) (fun _ => rfl)
  | bitZp d => exact shape_read (.zeroPage d) (by simp) (bitTest_only) (fun _ => rfl)
  | bitAbs a => exact shape_read (.absolute a) (by simp) (bitTest_only) (fun _ => rfl)
  | sec => exact shape_implied (putCarry_only true) (fun _ => rfl)
  | clc => exact shape_implied (putCarry_only false) (fun _ => rfl)
  | bcc r => exact shape_branch carryClear r (fun _ => rfl)
  | bcs r => exact shape_branch carrySet r (fun _ => rfl)
  | beq r => exact shape_branch zeroSet r (fun _ => rfl)
  | bne r => exact shape_branch zeroClear r (fun _ => rfl)
  | bmi r => exact shape_branch negativeSet r (fun _ => rfl)
  | bpl r => exact shape_branch negativeClear r (fun _ => rfl)
  | jmpAbs a => exact .inr (.inr (.inr (.inr (.inr (.inl ⟨a, rfl⟩)))))
  | jsrAbs a => exact .inr (.inr (.inr (.inr (.inr (.inr (.inl ⟨a, rfl⟩))))))
  | rts => exact .inr (.inr (.inr (.inr (.inr (.inr (.inr (.inl rfl)))))))
  | php => exact .inr (.inr (.inr (.inr (.inr (.inr (.inr (.inr (.inl rfl))))))))
  | nop => exact shape_implied (onlyRegsAndFlags_refl) (fun _ => rfl)
  | halt => exact .inr (.inr (.inr (.inr (.inr (.inr (.inr (.inr (.inr rfl))))))))

/-- Every instruction answers a next state: no meaning ends in a fault or a refusal, and none calls the resolver with
NoneAddressing. Halt apart, `run_state` is kept. -/
theorem exec_keeps_runState (i : Instr) (s : State) :
    ∃ t, exec i s = .next t ∧ (i ≠ .halt → t.runState = s.runState) := by
  rcases exec_shape i with ⟨m, f, hm, hf, h⟩ | ⟨m, hm, h⟩ | ⟨m, res, fl, hm, hf, h⟩ | ⟨f, hf, h⟩ | ⟨c, r, h⟩ | ⟨a, rfl⟩ |
    ⟨a, rfl⟩ | rfl | rfl | rfl
  · obtain ⟨v, hv⟩ := operandByte_isSome m s hm
    exact ⟨_, (h s).trans (readForm_next f hv), fun _ => (hf v s).runState⟩
  · obtain ⟨addr, ha⟩ := ea_isSome m s hm
    exact ⟨_, (h s).trans (storeForm_next State.a ha), fun _ => rfl⟩
  · obtain ⟨addr, ha⟩ := ea_isSome m s hm
    exact ⟨_, (h s).trans (modifyForm_next res fl ha), fun _ => (hf _ s).1.runState⟩
  · exact ⟨_, h s, fun _ => (hf s).runState⟩
  · exact ⟨_, (h s).trans (branchForm_next c r s), fun _ => rfl⟩
  · exact ⟨_, rfl, fun _ => rfl⟩
  · exact ⟨_, rfl, fun _ => rfl⟩
  · exact ⟨_, rfl, fun _ => rfl⟩
  · exact ⟨_, rfl, fun _ => rfl⟩
  · exact ⟨_, rfl, fun h => absurd rfl h⟩

end Sys2Proof.Machine
end

