-- ==== Sys2Proof/Laws/Host.lean ====
section
/-! SUPPORT. What a step answers by run_state, what host writes leave alone, and the equations of run_for by how its first
step ends. -/

namespace Sys2Proof.Machine

/-- A step of a Running core answers a next state. -/
theorem step_running {s : State} (h : s.runState = .running) : ∃ t, step s = .next t := by
  rcases step_cases s with ⟨h', _⟩ | ⟨_, h', _⟩ | ⟨i, _, _, e⟩ | ⟨_, _, e⟩
  · rw [h] at h'; cases h'
  · rw [h] at h'; cases h'
  · obtain ⟨t, ht, _⟩ := exec_keeps_runState i (pastOpcode s)
    exact ⟨t, e.trans ht⟩
  · exact ⟨_, e⟩

/-- A step that answers a next state started from a Running core. -/
theorem running_of_step {s t : State} (h : step s = .next t) : s.runState = .running := by
  rcases step_cases s with ⟨_, e⟩ | ⟨_, _, e⟩ | ⟨_, h', _⟩ | ⟨h', _⟩
  · rw [h] at e; cases e
  · rw [h] at e; cases e
  · exact h'
  · exact h'

@[simp] theorem stepOutcome_eq_running (t : State) : stepOutcome t = .running ↔ t.runState = .running := by
  unfold stepOutcome
  split <;> simp_all

/-- Host writes change memory alone, and keep its canonical form. -/
theorem hostWrites_frame (ws : HostWrites) (s : State) :
    ∃ m, hostWrites ws s = { s with mem := m } ∧ (s.mem.wf = true → m.wf = true) := by
  induction ws generalizing s with
  | nil => exact ⟨s.mem, rfl, id⟩
  | cons w ws ih =>
    obtain ⟨m, hm, hw⟩ := ih (hostWrite w.1 w.2 s)
    exact ⟨m, hm, fun h => hw (wf_write8 w.1 w.2 h)⟩

@[simp] theorem hostWrites_nil (s : State) : hostWrites [] s = s := rfl

@[simp] theorem hostWrites_runState (ws : HostWrites) (s : State) : (hostWrites ws s).runState = s.runState := by
  obtain ⟨m, hm, _⟩ := hostWrites_frame ws s
  rw [hm]

theorem runFor_zero {s : State} (h : s.runState = .running) : runFor 0 s = .next { last := s, observed := [] } := by
  simp only [runFor, h]

/-- The first step returns Running: the rest of the run follows, and the observer sees its state first. -/
theorem runFor_goes_on {s t : State} {e : RunEnd} {n : Nat} (h : step s = .next t) (ht : t.runState = .running)
    (he : runFor n t = .next e) : runFor (n + 1) s = .next { last := e.last, observed := t :: e.observed } := by
  simp only [runFor, h, (stepOutcome_eq_running t).2 ht, if_true, he]

/-- The first step stops the core: the run ends there, and the observer sees nothing. -/
theorem runFor_stops {s t : State} {n : Nat} (h : step s = .next t) (ht : t.runState ≠ .running) :
    runFor (n + 1) s = .next { last := t, observed := [] } := by
  simp only [runFor, h, stepOutcome_eq_running, ht, if_false]

/-- run_for on a Running core answers an end. -/
theorem runFor_running (n : Nat) {s : State} (h : s.runState = .running) : ∃ e, runFor n s = .next e := by
  induction n generalizing s with
  | zero => exact ⟨_, runFor_zero h⟩
  | succ n ih =>
    obtain ⟨t, ht⟩ := step_running h
    by_cases hr : t.runState = .running
    · obtain ⟨e, he⟩ := ih hr
      exact ⟨_, runFor_goes_on ht hr he⟩
    · exact ⟨_, runFor_stops ht hr⟩

/-! ### The writes of an observer -/

theorem makesWrites_nil (ws : List HostWrites) : makesWrites ws [] := by cases ws <;> trivial

/-- Each call's writes are those at its place in the list, and the later calls go on with the rest of the list. -/
theorem makesWrites_cons (ws : List HostWrites) (c : ObserverCall) (later : List ObserverCall) :
    makesWrites ws (c :: later) ↔ c.writes = ws.headD [] ∧ makesWrites ws.tail later := by
  cases ws <;> rfl

/-- The absent observer writes nothing at any call. -/
theorem makesWrites_absent (calls : List ObserverCall) : makesWrites [] calls ↔ ∀ c ∈ calls, c.writes = [] := by
  induction calls with
  | nil => simp [makesWrites_nil]
  | cons c later ih => simp [makesWrites_cons, ih]

end Sys2Proof.Machine
end

