-- ==== Sys2Proof/Laws/PerInstr.lean ====
section
/-! SUPPORT. One family of per-instruction facts, named in LAWS.json: the shape of an instruction's encoding (30_encoding.md
R50, R51) and the well-formedness of its table entry (R58: the default table has no malformed row). -/

namespace Sys2Proof.Laws.EncodedShape

/-- The instruction is well formed, and it is encoded in one opcode byte, one that the dispatch table gives the
instruction's own entry, and as many operand bytes as its mode takes. -/
def Statement (i : Instr) : Prop :=
  i.wellFormed = true ∧ ∃ b operand, encode i = b :: operand ∧ opTable b = some i.descriptor ∧
    operand.length = i.form.2.operandLength

theorem ldaImm (d : Byte) : Statement (.ldaImm d) := ⟨rfl, _, _, rfl, rfl, rfl⟩
theorem ldaZp (d : Byte) : Statement (.ldaZp d) := ⟨rfl, _, _, rfl, rfl, rfl⟩
theorem ldaZpX (d : Byte) : Statement (.ldaZpX d) := ⟨rfl, _, _, rfl, rfl, rfl⟩
theorem ldaAbs (a : Word) : Statement (.ldaAbs a) := ⟨rfl, _, _, rfl, rfl, rfl⟩
theorem ldaAbsX (a : Word) : Statement (.ldaAbsX a) := ⟨rfl, _, _, rfl, rfl, rfl⟩
theorem ldaAbsY (a : Word) : Statement (.ldaAbsY a) := ⟨rfl, _, _, rfl, rfl, rfl⟩
theorem ldaIndX (d : Byte) : Statement (.ldaIndX d) := ⟨rfl, _, _, rfl, rfl, rfl⟩
theorem ldaIndY (d : Byte) : Statement (.ldaIndY d) := ⟨rfl, _, _, rfl, rfl, rfl⟩
theorem ldxImm (d : Byte) : Statement (.ldxImm d) := ⟨rfl, _, _, rfl, rfl, rfl⟩
theorem ldxZp (d : Byte) : Statement (.ldxZp d) := ⟨rfl, _, _, rfl, rfl, rfl⟩
theorem ldxZpY (d : Byte) : Statement (.ldxZpY d) := ⟨rfl, _, _, rfl, rfl, rfl⟩
theorem ldxAbs (a : Word) : Statement (.ldxAbs a) := ⟨rfl, _, _, rfl, rfl, rfl⟩
theorem ldxAbsY (a : Word) : Statement (.ldxAbsY a) := ⟨rfl, _, _, rfl, rfl, rfl⟩
theorem ldyImm (d : Byte) : Statement (.ldyImm d) := ⟨rfl, _, _, rfl, rfl, rfl⟩
theorem ldyZp (d : Byte) : Statement (.ldyZp d) := ⟨rfl, _, _, rfl, rfl, rfl⟩
theorem ldyZpX (d : Byte) : Statement (.ldyZpX d) := ⟨rfl, _, _, rfl, rfl, rfl⟩
theorem ldyAbs (a : Word) : Statement (.ldyAbs a) := ⟨rfl, _, _, rfl, rfl, rfl⟩
theorem ldyAbsX (a : Word) : Statement (.ldyAbsX a) := ⟨rfl, _, _, rfl, rfl, rfl⟩
theorem staZp (d : Byte) : Statement (.staZp d) := ⟨rfl, _, _, rfl, rfl, rfl⟩
theorem staZpX (d : Byte) : Statement (.staZpX d) := ⟨rfl, _, _, rfl, rfl, rfl⟩
theorem staAbs (a : Word) : Statement (.staAbs a) := ⟨rfl, _, _, rfl, rfl, rfl⟩
theorem staAbsX (a : Word) : Statement (.staAbsX a) := ⟨rfl, _, _, rfl, rfl, rfl⟩
theorem staAbsY (a : Word) : Statement (.staAbsY a) := ⟨rfl, _, _, rfl, rfl, rfl⟩
theorem staIndX (d : Byte) : Statement (.staIndX d) := ⟨rfl, _, _, rfl, rfl, rfl⟩
theorem staIndY (d : Byte) : Statement (.staIndY d) := ⟨rfl, _, _, rfl, rfl, rfl⟩
theorem tax : Statement .tax := ⟨rfl, _, _, rfl, rfl, rfl⟩
theorem txa : Statement .txa := ⟨rfl, _, _, rfl, rfl, rfl⟩
theorem adcImm (d : Byte) : Statement (.adcImm d) := ⟨rfl, _, _, rfl, rfl, rfl⟩
theorem adcZp (d : Byte) : Statement (.adcZp d) := ⟨rfl, _, _, rfl, rfl, rfl⟩
theorem adcZpX (d : Byte) : Statement (.adcZpX d) := ⟨rfl, _, _, rfl, rfl, rfl⟩
theorem adcAbs (a : Word) : Statement (.adcAbs a) := ⟨rfl, _, _, rfl, rfl, rfl⟩
theorem adcAbsX (a : Word) : Statement (.adcAbsX a) := ⟨rfl, _, _, rfl, rfl, rfl⟩
theorem adcAbsY (a : Word) : Statement (.adcAbsY a) := ⟨rfl, _, _, rfl, rfl, rfl⟩
theorem adcIndX (d : Byte) : Statement (.adcIndX d) := ⟨rfl, _, _, rfl, rfl, rfl⟩
theorem adcIndY (d : Byte) : Statement (.adcIndY d) := ⟨rfl, _, _, rfl, rfl, rfl⟩
theorem andImm (d : Byte) : Statement (.andImm d) := ⟨rfl, _, _, rfl, rfl, rfl⟩
theorem andZp (d : Byte) : Statement (.andZp d) := ⟨rfl, _, _, rfl, rfl, rfl⟩
theorem andZpX (d : Byte) : Statement (.andZpX d) := ⟨rfl, _, _, rfl, rfl, rfl⟩
theorem andAbs (a : Word) : Statement (.andAbs a) := ⟨rfl, _, _, rfl, rfl, rfl⟩
theorem andAbsX (a : Word) : Statement (.andAbsX a) := ⟨rfl, _, _, rfl, rfl, rfl⟩
theorem andAbsY (a : Word) : Statement (.andAbsY a) := ⟨rfl, _, _, rfl, rfl, rfl⟩
theorem andIndX (d : Byte) : Statement (.andIndX d) := ⟨rfl, _, _, rfl, rfl, rfl⟩
theorem andIndY (d : Byte) : Statement (.andIndY d) := ⟨rfl, _, _, rfl, rfl, rfl⟩
theorem oraImm (d : Byte) : Statement (.oraImm d) := ⟨rfl, _, _, rfl, rfl, rfl⟩
theorem oraZp (d : Byte) : Statement (.oraZp d) := ⟨rfl, _, _, rfl, rfl, rfl⟩
theorem oraZpX (d : Byte) : Statement (.oraZpX d) := ⟨rfl, _, _, rfl, rfl, rfl⟩
theorem oraAbs (a : Word) : Statement (.oraAbs a) := ⟨rfl, _, _, rfl, rfl, rfl⟩
theorem oraAbsX (a : Word) : Statement (.oraAbsX a) := ⟨rfl, _, _, rfl, rfl, rfl⟩
theorem oraAbsY (a : Word) : Statement (.oraAbsY a) := ⟨rfl, _, _, rfl, rfl, rfl⟩
theorem oraIndX (d : Byte) : Statement (.oraIndX d) := ⟨rfl, _, _, rfl, rfl, rfl⟩
theorem oraIndY (d : Byte) : Statement (.oraIndY d) := ⟨rfl, _, _, rfl, rfl, rfl⟩
theorem aslAcc : Statement .aslAcc := ⟨rfl, _, _, rfl, rfl, rfl⟩
theorem aslZp (d : Byte) : Statement (.aslZp d) := ⟨rfl, _, _, rfl, rfl, rfl⟩
theorem aslZpX (d : Byte) : Statement (.aslZpX d) := ⟨rfl, _, _, rfl, rfl, rfl⟩
theorem aslAbs (a : Word) : Statement (.aslAbs a) := ⟨rfl, _, _, rfl, rfl, rfl⟩
theorem aslAbsX (a : Word) : Statement (.aslAbsX a) := ⟨rfl, _, _, rfl, rfl, rfl⟩
theorem rolAcc : Statement .rolAcc := ⟨rfl, _, _, rfl, rfl, rfl⟩
theorem rolZp (d : Byte) : Statement (.rolZp d) := ⟨rfl, _, _, rfl, rfl, rfl⟩
theorem rolZpX (d : Byte) : Statement (.rolZpX d) := ⟨rfl, _, _, rfl, rfl, rfl⟩
theorem rolAbs (a : Word) : Statement (.rolAbs a) := ⟨rfl, _, _, rfl, rfl, rfl⟩
theorem rolAbsX (a : Word) : Statement (.rolAbsX a) := ⟨rfl, _, _, rfl, rfl, rfl⟩
theorem lsrAcc : Statement .lsrAcc := ⟨rfl, _, _, rfl, rfl, rfl⟩
theorem inx : Statement .inx := ⟨rfl, _, _, rfl, rfl, rfl⟩
theorem dex : Statement .dex := ⟨rfl, _, _, rfl, rfl, rfl⟩
theorem incZp (d : Byte) : Statement (.incZp d) := ⟨rfl, _, _, rfl, rfl, rfl⟩
theorem incZpX (d : Byte) : Statement (.incZpX d) := ⟨rfl, _, _, rfl, rfl, rfl⟩
theorem incAbs (a : Word) : Statement (.incAbs a) := ⟨rfl, _, _, rfl, rfl, rfl⟩
theorem incAbsX (a : Word) : Statement (.incAbsX a) := ⟨rfl, _, _, rfl, rfl, rfl⟩
theorem decZp (d : Byte) : Statement (.decZp d) := ⟨rfl, _, _, rfl, rfl, rfl⟩
theorem decZpX (d : Byte) : Statement (.decZpX d) := ⟨rfl, _, _, rfl, rfl, rfl⟩
theorem decAbs (a : Word) : Statement (.decAbs a) := ⟨rfl, _, _, rfl, rfl, rfl⟩
theorem decAbsX (a : Word) : Statement (.decAbsX a) := ⟨rfl, _, _, rfl, rfl, rfl⟩
theorem cmpImm (d : Byte) : Statement (.cmpImm d) := ⟨rfl, _, _, rfl, rfl, rfl⟩
theorem cmpZp (d : Byte) : Statement (.cmpZp d) := ⟨rfl, _, _, rfl, rfl, rfl⟩
theorem cmpZpX (d : Byte) : Statement (.cmpZpX d) := ⟨rfl, _, _, rfl, rfl, rfl⟩
theorem cmpAbs (a : Word) : Statement (.cmpAbs a) := ⟨rfl, _, _, rfl, rfl, rfl⟩
theorem cmpAbsX (a : Word) : Statement (.cmpAbsX a) := ⟨rfl, _, _, rfl, rfl, rfl⟩
theorem cmpAbsY (a : Word) : Statement (.cmpAbsY a) := ⟨rfl, _, _, rfl, rfl, rfl⟩
theorem cmpIndX (d : Byte) : Statement (.cmpIndX d) := ⟨rfl, _, _, rfl, rfl, rfl⟩
theorem cmpIndY (d : Byte) : Statement (.cmpIndY d) := ⟨rfl, _, _, rfl, rfl, rfl⟩
theorem cpxImm (d : Byte) : Statement (.cpxImm d) := ⟨rfl, _, _, rfl, rfl, rfl⟩
theorem cpxZp (d : Byte) : Statement (.cpxZp d) := ⟨rfl, _, _, rfl, rfl, rfl⟩
theorem cpxAbs (a : Word) : Statement (.cpxAbs a) := ⟨rfl, _, _, rfl, rfl, rfl⟩
theorem cpyImm (d : Byte) : Statement (.cpyImm d) := ⟨rfl, _, _, rfl, rfl, rfl⟩
theorem cpyZp (d : Byte) : Statement (.cpyZp d) := ⟨rfl, _, _, rfl, rfl, rfl⟩
theorem cpyAbs (a : Word) : Statement (.cpyAbs a) := ⟨rfl, _, _, rfl, rfl, rfl⟩
theorem bitZp (d : Byte) : Statement (.bitZp d) := ⟨rfl, _, _, rfl, rfl, rfl⟩
theorem bitAbs (a : Word) : Statement (.bitAbs a) := ⟨rfl, _, _, rfl, rfl, rfl⟩
theorem sec : Statement .sec := ⟨rfl, _, _, rfl, rfl, rfl⟩
theorem clc : Statement .clc := ⟨rfl, _, _, rfl, rfl, rfl⟩
theorem bcc (r : Byte) : Statement (.bcc r) := ⟨rfl, _, _, rfl, rfl, rfl⟩
theorem bcs (r : Byte) : Statement (.bcs r) := ⟨rfl, _, _, rfl, rfl, rfl⟩
theorem beq (r : Byte) : Statement (.beq r) := ⟨rfl, _, _, rfl, rfl, rfl⟩
theorem bne (r : Byte) : Statement (.bne r) := ⟨rfl, _, _, rfl, rfl, rfl⟩
theorem bmi (r : Byte) : Statement (.bmi r) := ⟨rfl, _, _, rfl, rfl, rfl⟩
theorem bpl (r : Byte) : Statement (.bpl r) := ⟨rfl, _, _, rfl, rfl, rfl⟩
theorem jmpAbs (a : Word) : Statement (.jmpAbs a) := ⟨rfl, _, _, rfl, rfl, rfl⟩
theorem jsrAbs (a : Word) : Statement (.jsrAbs a) := ⟨rfl, _, _, rfl, rfl, rfl⟩
theorem rts : Statement .rts := ⟨rfl, _, _, rfl, rfl, rfl⟩
theorem php : Statement .php := ⟨rfl, _, _, rfl, rfl, rfl⟩
theorem nop : Statement .nop := ⟨rfl, _, _, rfl, rfl, rfl⟩
theorem halt : Statement .halt := ⟨rfl, _, _, rfl, rfl, rfl⟩

end Sys2Proof.Laws.EncodedShape
end

