-- ==== Sys2Proof/Tests/Slice0.lean ====
section
/-! SUPPORT. The model's own tests. Every expected value is the spec's: words are written out from the encodings of
30_encoding.md R54 and R59, one-step results are the derived vectors V<n> of 95_test_vectors.md, and witnesses show that the
hypotheses of the obligations can be met. -/

namespace Sys2Proof.Tests

open Sys2Proof.Machine

/-! ### Helpers -/

/-- A core after power-on with PC set and bytes placed there (95_test_vectors.md section 2). -/
def start (pc : Word) (code : List Byte) : State := writeBytes code pc { State.reset with pc := pc }

/-- A state with some memory bytes preset. -/
def poke (s : State) (cells : List (Word × Byte)) : State := cells.foldl (fun t c => t.write8 c.1 c.2) s

/-- One field of the state a result holds. -/
def field (f : State → Byte) (r : Result) : Option Byte :=
  match r with
  | .next t => some (f t)
  | .fault _ => none
  | .refused _ => none

/-- PC of the state a result holds. -/
def pcOf (r : Result) : Option Word :=
  match r with
  | .next t => some t.pc
  | .fault _ => none
  | .refused _ => none

/-- `run_state` of the state a result holds. -/
def runStateOf (r : Result) : Option RunState :=
  match r with
  | .next t => some t.runState
  | .fault _ => none
  | .refused _ => none

/-- One memory byte of the state a result holds. -/
def cell (q : Word) (r : Result) : Option Byte := field (fun t => t.read8 q) r

/-! ### WellFormed: an ill-formed entry for each check, which the check refuses -/

/-- A memory handler with NoneAddressing: the malformed row of R58. -/
theorem test_wellFormed_refuses_mode :
    ({ handler := .lda, mode := .implied, operandLength := 0, ownsPc := .no } : Descriptor).wellFormed = false := by
  decide

/-- An Absolute entry with one operand byte (R51). -/
theorem test_wellFormed_refuses_length :
    ({ handler := .jmp, mode := .absolute, operandLength := 1, ownsPc := .yes } : Descriptor).wellFormed = false := by
  decide

/-- A branch that is said to own PC always (R53, 90_conflicts.md C2). -/
theorem test_wellFormed_refuses_owner :
    ({ handler := .bne, mode := .relative, operandLength := 1, ownsPc := .yes } : Descriptor).wellFormed = false := by
  decide

/-- LSR has no memory form (R54, R61). -/
theorem test_wellFormed_refuses_lsr_memory :
    ({ handler := .lsr, mode := .zeroPage, operandLength := 1, ownsPc := .no } : Descriptor).wellFormed = false := by
  decide

/-- The table's own row for BNE is well formed. -/
theorem test_wellFormed_accepts :
    ({ handler := .bne, mode := .relative, operandLength := 1, ownsPc := .ifTaken } : Descriptor).wellFormed = true := by
  decide

/-! ### Decoding: every constructor from a word written out from R54 (second byte bits 15 to 8, third bits 23 to 16) -/

theorem test_decode_lda :
    decodeTableWord 16 0x10A9 = some (.ldaImm 0x10#8) ∧
    decodeTableWord 16 0x10A5 = some (.ldaZp 0x10#8) ∧
    decodeTableWord 16 0x10B5 = some (.ldaZpX 0x10#8) ∧
    decodeTableWord 24 0x1234AD = some (.ldaAbs 0x1234#16) ∧
    decodeTableWord 24 0x1234BD = some (.ldaAbsX 0x1234#16) ∧
    decodeTableWord 24 0x1234B9 = some (.ldaAbsY 0x1234#16) ∧
    decodeTableWord 16 0x10A1 = some (.ldaIndX 0x10#8) ∧
    decodeTableWord 16 0x10B1 = some (.ldaIndY 0x10#8) := by
  decide

theorem test_decode_ldx :
    decodeTableWord 16 0x10A2 = some (.ldxImm 0x10#8) ∧
    decodeTableWord 16 0x10A6 = some (.ldxZp 0x10#8) ∧
    decodeTableWord 16 0x10B6 = some (.ldxZpY 0x10#8) ∧
    decodeTableWord 24 0x1234AE = some (.ldxAbs 0x1234#16) ∧
    decodeTableWord 24 0x1234BE = some (.ldxAbsY 0x1234#16) := by
  decide

theorem test_decode_ldy :
    decodeTableWord 16 0x10A0 = some (.ldyImm 0x10#8) ∧
    decodeTableWord 16 0x10A4 = some (.ldyZp 0x10#8) ∧
    decodeTableWord 16 0x10B4 = some (.ldyZpX 0x10#8) ∧
    decodeTableWord 24 0x1234AC = some (.ldyAbs 0x1234#16) ∧
    decodeTableWord 24 0x1234BC = some (.ldyAbsX 0x1234#16) := by
  decide

theorem test_decode_sta :
    decodeTableWord 16 0x1085 = some (.staZp 0x10#8) ∧
    decodeTableWord 16 0x1095 = some (.staZpX 0x10#8) ∧
    decodeTableWord 24 0x12348D = some (.staAbs 0x1234#16) ∧
    decodeTableWord 24 0x12349D = some (.staAbsX 0x1234#16) ∧
    decodeTableWord 24 0x123499 = some (.staAbsY 0x1234#16) ∧
    decodeTableWord 16 0x1081 = some (.staIndX 0x10#8) ∧
    decodeTableWord 16 0x1091 = some (.staIndY 0x10#8) := by
  decide

theorem test_decode_tax :
    decodeTableWord 8 0xAA = some .tax := by
  decide

theorem test_decode_txa :
    decodeTableWord 8 0x8A = some .txa := by
  decide

theorem test_decode_adc :
    decodeTableWord 16 0x1069 = some (.adcImm 0x10#8) ∧
    decodeTableWord 16 0x1065 = some (.adcZp 0x10#8) ∧
    decodeTableWord 16 0x1075 = some (.adcZpX 0x10#8) ∧
    decodeTableWord 24 0x12346D = some (.adcAbs 0x1234#16) ∧
    decodeTableWord 24 0x12347D = some (.adcAbsX 0x1234#16) ∧
    decodeTableWord 24 0x123479 = some (.adcAbsY 0x1234#16) ∧
    decodeTableWord 16 0x1061 = some (.adcIndX 0x10#8) ∧
    decodeTableWord 16 0x1071 = some (.adcIndY 0x10#8) := by
  decide

theorem test_decode_and :
    decodeTableWord 16 0x1029 = some (.andImm 0x10#8) ∧
    decodeTableWord 16 0x1025 = some (.andZp 0x10#8) ∧
    decodeTableWord 16 0x1035 = some (.andZpX 0x10#8) ∧
    decodeTableWord 24 0x12342D = some (.andAbs 0x1234#16) ∧
    decodeTableWord 24 0x12343D = some (.andAbsX 0x1234#16) ∧
    decodeTableWord 24 0x123439 = some (.andAbsY 0x1234#16) ∧
    decodeTableWord 16 0x1021 = some (.andIndX 0x10#8) ∧
    decodeTableWord 16 0x1031 = some (.andIndY 0x10#8) := by
  decide

theorem test_decode_ora :
    decodeTableWord 16 0x1009 = some (.oraImm 0x10#8) ∧
    decodeTableWord 16 0x1005 = some (.oraZp 0x10#8) ∧
    decodeTableWord 16 0x1015 = some (.oraZpX 0x10#8) ∧
    decodeTableWord 24 0x12340D = some (.oraAbs 0x1234#16) ∧
    decodeTableWord 24 0x12341D = some (.oraAbsX 0x1234#16) ∧
    decodeTableWord 24 0x123419 = some (.oraAbsY 0x1234#16) ∧
    decodeTableWord 16 0x1001 = some (.oraIndX 0x10#8) ∧
    decodeTableWord 16 0x1011 = some (.oraIndY 0x10#8) := by
  decide

theorem test_decode_asl :
    decodeTableWord 8 0x0A = some .aslAcc ∧
    decodeTableWord 16 0x1006 = some (.aslZp 0x10#8) ∧
    decodeTableWord 16 0x1016 = some (.aslZpX 0x10#8) ∧
    decodeTableWord 24 0x12340E = some (.aslAbs 0x1234#16) ∧
    decodeTableWord 24 0x12341E = some (.aslAbsX 0x1234#16) := by
  decide

theorem test_decode_rol :
    decodeTableWord 8 0x2A = some .rolAcc ∧
    decodeTableWord 16 0x1026 = some (.rolZp 0x10#8) ∧
    decodeTableWord 16 0x1036 = some (.rolZpX 0x10#8) ∧
    decodeTableWord 24 0x12342E = some (.rolAbs 0x1234#16) ∧
    decodeTableWord 24 0x12343E = some (.rolAbsX 0x1234#16) := by
  decide

theorem test_decode_lsr :
    decodeTableWord 8 0x4A = some .lsrAcc := by
  decide

theorem test_decode_inx :
    decodeTableWord 8 0xE8 = some .inx := by
  decide

theorem test_decode_dex :
    decodeTableWord 8 0xCA = some .dex := by
  decide

theorem test_decode_inc :
    decodeTableWord 16 0x10E6 = some (.incZp 0x10#8) ∧
    decodeTableWord 16 0x10F6 = some (.incZpX 0x10#8) ∧
    decodeTableWord 24 0x1234EE = some (.incAbs 0x1234#16) ∧
    decodeTableWord 24 0x1234FE = some (.incAbsX 0x1234#16) := by
  decide

theorem test_decode_dec :
    decodeTableWord 16 0x10C6 = some (.decZp 0x10#8) ∧
    decodeTableWord 16 0x10D6 = some (.decZpX 0x10#8) ∧
    decodeTableWord 24 0x1234CE = some (.decAbs 0x1234#16) ∧
    decodeTableWord 24 0x1234DE = some (.decAbsX 0x1234#16) := by
  decide

theorem test_decode_cmp :
    decodeTableWord 16 0x10C9 = some (.cmpImm 0x10#8) ∧
    decodeTableWord 16 0x10C5 = some (.cmpZp 0x10#8) ∧
    decodeTableWord 16 0x10D5 = some (.cmpZpX 0x10#8) ∧
    decodeTableWord 24 0x1234CD = some (.cmpAbs 0x1234#16) ∧
    decodeTableWord 24 0x1234DD = some (.cmpAbsX 0x1234#16) ∧
    decodeTableWord 24 0x1234D9 = some (.cmpAbsY 0x1234#16) ∧
    decodeTableWord 16 0x10C1 = some (.cmpIndX 0x10#8) ∧
    decodeTableWord 16 0x10D1 = some (.cmpIndY 0x10#8) := by
  decide

theorem test_decode_cpx :
    decodeTableWord 16 0x10E0 = some (.cpxImm 0x10#8) ∧
    decodeTableWord 16 0x10E4 = some (.cpxZp 0x10#8) ∧
    decodeTableWord 24 0x1234EC = some (.cpxAbs 0x1234#16) := by
  decide

theorem test_decode_cpy :
    decodeTableWord 16 0x10C0 = some (.cpyImm 0x10#8) ∧
    decodeTableWord 16 0x10C4 = some (.cpyZp 0x10#8) ∧
    decodeTableWord 24 0x1234CC = some (.cpyAbs 0x1234#16) := by
  decide

theorem test_decode_bit :
    decodeTableWord 16 0x1024 = some (.bitZp 0x10#8) ∧
    decodeTableWord 24 0x12342C = some (.bitAbs 0x1234#16) := by
  decide

theorem test_decode_sec :
    decodeTableWord 8 0x38 = some .sec := by
  decide

theorem test_decode_clc :
    decodeTableWord 8 0x18 = some .clc := by
  decide

theorem test_decode_bcc :
    decodeTableWord 16 0xFA90 = some (.bcc 0xFA#8) := by
  decide

theorem test_decode_bcs :
    decodeTableWord 16 0xFAB0 = some (.bcs 0xFA#8) := by
  decide

theorem test_decode_beq :
    decodeTableWord 16 0xFAF0 = some (.beq 0xFA#8) := by
  decide

theorem test_decode_bne :
    decodeTableWord 16 0xFAD0 = some (.bne 0xFA#8) := by
  decide

theorem test_decode_bmi :
    decodeTableWord 16 0xFA30 = some (.bmi 0xFA#8) := by
  decide

theorem test_decode_bpl :
    decodeTableWord 16 0xFA10 = some (.bpl 0xFA#8) := by
  decide

theorem test_decode_jmp :
    decodeTableWord 24 0x12344C = some (.jmpAbs 0x1234#16) := by
  decide

theorem test_decode_jsr :
    decodeTableWord 24 0x123420 = some (.jsrAbs 0x1234#16) := by
  decide

theorem test_decode_rts :
    decodeTableWord 8 0x60 = some .rts := by
  decide

theorem test_decode_php :
    decodeTableWord 8 0x08 = some .php := by
  decide

theorem test_decode_nop :
    decodeTableWord 8 0xEA = some .nop := by
  decide

theorem test_decode_halt :
    decodeTableWord 8 0x00 = some .halt := by
  decide

/-- The operand bytes are little-endian: low byte first (R55). -/
theorem test_decode_lda_example : decode [0xAD#8, 0x34#8, 0x12#8] = .ok (.ldaAbs 0x1234#16, []) := by rfl

/-- TAY, JMP indirect and the other bytes of R61 are illegal opcodes here. -/
theorem test_decode_rejects_by_name :
    decode [0xA8#8] = .error (.illegalOpcode 0xA8#8) ∧ decode [0x6C#8, 0x00#8, 0x02#8] = .error (.illegalOpcode 0x6C#8) ∧
    decode [0x46#8, 0x10#8] = .error (.illegalOpcode 0x46#8) ∧ decode [0xAD#8, 0x34#8] = .error .truncated :=
  ⟨rfl, rfl, rfl, rfl⟩

/-! ### One step: derived vectors of 95_test_vectors.md section 2 -/

theorem test_V1_ldaImm :
    let r := step (start 0x8000#16 [0xA9#8, 0x80#8])
    field State.a r = some 0x80#8 ∧ field State.p r = some 0xA4#8 := by
  decide

theorem test_V3_ldaZpX :
    let r := step (poke ({ start 0x8000#16 [0xB5#8, 0xF0#8] with x := 0x20#8 }) [(0x0010#16, 0x99#8)])
    field State.a r = some 0x99#8 ∧ field State.p r = some 0xA4#8 := by
  decide

theorem test_V4_ldxZpY :
    let r := step (poke ({ start 0x8000#16 [0xB6#8, 0xFF#8] with y := 0x01#8 }) [(0x0000#16, 0x42#8)])
    field State.x r = some 0x42#8 ∧ field State.p r = some 0x24#8 := by
  decide

theorem test_V5_ldaAbsX :
    let r := step (poke ({ start 0x8000#16 [0xBD#8, 0xF0#8, 0xFF#8] with x := 0x20#8 }) [(0x0010#16, 0x77#8)])
    field State.a r = some 0x77#8 ∧ field State.p r = some 0x24#8 := by
  decide

theorem test_V6_ldaAbsY :
    let r := step (poke ({ start 0x8000#16 [0xB9#8, 0x00#8, 0x02#8] with y := 0xFF#8 }) [(0x02FF#16, 0x01#8)])
    field State.a r = some 0x01#8 ∧ field State.p r = some 0x24#8 := by
  decide

theorem test_V7_ldaIndX :
    let r := step (poke ({ start 0x8000#16 [0xA1#8, 0xF0#8] with x := 0x0F#8 }) [(0x00FF#16, 0x34#8), (0x0000#16, 0x12#8), (0x1234#16, 0x55#8)])
    field State.a r = some 0x55#8 ∧ field State.p r = some 0x24#8 := by
  decide

theorem test_V8_ldaIndY :
    let r := step (poke ({ start 0x8000#16 [0xB1#8, 0x20#8] with y := 0x02#8 }) [(0x0020#16, 0xFF#8), (0x0021#16, 0xFF#8), (0x0001#16, 0xAB#8)])
    field State.a r = some 0xAB#8 ∧ field State.p r = some 0xA4#8 := by
  decide

theorem test_V9_ldaIndY :
    let r := step (poke (start 0x8000#16 [0xB1#8, 0xFF#8]) [(0x00FF#16, 0x00#8), (0x0000#16, 0x03#8), (0x0100#16, 0x04#8), (0x0300#16, 0xC3#8)])
    field State.a r = some 0xC3#8 ∧ field State.p r = some 0xA4#8 := by
  decide

theorem test_V11_ldyAbsX :
    let r := step (poke ({ start 0x8000#16 [0xBC#8, 0x00#8, 0x03#8] with x := 0x01#8 }) [(0x0301#16, 0xFF#8)])
    field State.y r = some 0xFF#8 ∧ field State.p r = some 0xA4#8 := by
  decide

theorem test_V12_ldxAbsY :
    let r := step (poke ({ start 0x8000#16 [0xBE#8, 0x00#8, 0x03#8] with y := 0x01#8 }) [(0x0301#16, 0x7F#8)])
    field State.x r = some 0x7F#8 ∧ field State.p r = some 0x24#8 := by
  decide

theorem test_V13_staZpX :
    let r := step ({ start 0x8000#16 [0x95#8, 0xFF#8] with a := 0x11#8, x := 0x02#8 })
    field State.p r = some 0x24#8 ∧ cell 0x0001#16 r = some 0x11#8 := by
  decide

theorem test_V14_staZp :
    let r := step (poke ({ start 0x8000#16 [0x85#8, 0x10#8] with a := 0x00#8, p := 0xA4#8 }) [(0x0010#16, 0x55#8)])
    field State.p r = some 0xA4#8 ∧ cell 0x0010#16 r = some 0x00#8 := by
  decide

theorem test_V15_staAbsY :
    let r := step ({ start 0x8000#16 [0x99#8, 0xFF#8, 0xFF#8] with a := 0x33#8, y := 0x01#8 })
    field State.p r = some 0x24#8 ∧ cell 0x0000#16 r = some 0x33#8 := by
  decide

theorem test_V16_staAbs :
    let r := step ({ start 0x8000#16 [0x8D#8, 0x03#8, 0x80#8] with a := 0xEA#8 })
    field State.p r = some 0x24#8 ∧ cell 0x8003#16 r = some 0xEA#8 := by
  decide

theorem test_V17_staIndX :
    let r := step (poke ({ start 0x8000#16 [0x81#8, 0x20#8] with a := 0x5A#8, x := 0x04#8 }) [(0x0024#16, 0x00#8), (0x0025#16, 0x04#8)])
    field State.p r = some 0x24#8 ∧ cell 0x0400#16 r = some 0x5A#8 := by
  decide

theorem test_V18_staIndY :
    let r := step (poke ({ start 0x8000#16 [0x91#8, 0x20#8] with a := 0x7F#8, y := 0x03#8 }) [(0x0020#16, 0x00#8), (0x0021#16, 0x02#8)])
    field State.p r = some 0x24#8 ∧ cell 0x0203#16 r = some 0x7F#8 := by
  decide

theorem test_V19a_tax :
    let r := step ({ start 0x8000#16 [0xAA#8] with a := 0x80#8 })
    field State.x r = some 0x80#8 ∧ field State.p r = some 0xA4#8 := by
  decide

theorem test_V19b_tax :
    let r := step ({ start 0x8000#16 [0xAA#8] with a := 0x00#8, x := 0x77#8, p := 0xA4#8 })
    field State.x r = some 0x00#8 ∧ field State.p r = some 0x26#8 := by
  decide

theorem test_V19c_txa :
    let r := step ({ start 0x8000#16 [0x8A#8] with x := 0x7F#8, a := 0x80#8, p := 0xA4#8 })
    field State.a r = some 0x7F#8 ∧ field State.p r = some 0x24#8 := by
  decide

theorem test_V20_adcImm :
    let r := step ({ start 0x8000#16 [0x69#8, 0x01#8] with a := 0xFF#8 })
    field State.a r = some 0x00#8 ∧ field State.p r = some 0x27#8 := by
  decide

theorem test_V22_adcImm :
    let r := step ({ start 0x8000#16 [0x69#8, 0x00#8] with a := 0x7F#8, p := 0x25#8 })
    field State.a r = some 0x80#8 ∧ field State.p r = some 0xE4#8 := by
  decide

theorem test_V30_andImm :
    let r := step ({ start 0x8000#16 [0x29#8, 0x0F#8] with a := 0xF0#8 })
    field State.a r = some 0x00#8 ∧ field State.p r = some 0x26#8 := by
  decide

theorem test_V31_andImm :
    let r := step ({ start 0x8000#16 [0x29#8, 0x80#8] with a := 0xFF#8, p := 0x26#8 })
    field State.a r = some 0x80#8 ∧ field State.p r = some 0xA4#8 := by
  decide

theorem test_V32_oraImm :
    let r := step ({ start 0x8000#16 [0x09#8, 0x80#8] with a := 0x01#8 })
    field State.a r = some 0x81#8 ∧ field State.p r = some 0xA4#8 := by
  decide

theorem test_V34_andAbsX :
    let r := step (poke ({ start 0x8000#16 [0x3D#8, 0x00#8, 0x02#8] with a := 0x3C#8, x := 0x01#8 }) [(0x0201#16, 0x0F#8)])
    field State.a r = some 0x0C#8 ∧ field State.p r = some 0x24#8 := by
  decide

theorem test_V35_aslAcc :
    let r := step ({ start 0x8000#16 [0x0A#8] with a := 0x81#8 })
    field State.a r = some 0x02#8 ∧ field State.p r = some 0x25#8 := by
  decide

theorem test_V37_aslAcc :
    let r := step ({ start 0x8000#16 [0x0A#8] with a := 0x40#8, p := 0x25#8 })
    field State.a r = some 0x80#8 ∧ field State.p r = some 0xA4#8 := by
  decide

theorem test_V38_aslAbs :
    let r := step (poke (start 0x8000#16 [0x0E#8, 0x03#8, 0x02#8]) [(0x0203#16, 0x80#8)])
    field State.p r = some 0x27#8 ∧ cell 0x0203#16 r = some 0x00#8 := by
  decide

theorem test_V39_aslZpX :
    let r := step (poke ({ start 0x8000#16 [0x16#8, 0x10#8] with x := 0x01#8 }) [(0x0011#16, 0x55#8)])
    field State.p r = some 0xA4#8 ∧ cell 0x0011#16 r = some 0xAA#8 := by
  decide

theorem test_V40_rolAcc :
    let r := step ({ start 0x8000#16 [0x2A#8] with a := 0x80#8 })
    field State.a r = some 0x00#8 ∧ field State.p r = some 0xA5#8 := by
  decide

theorem test_V41_rolAcc :
    let r := step ({ start 0x8000#16 [0x2A#8] with a := 0x00#8, p := 0x25#8 })
    field State.a r = some 0x01#8 ∧ field State.p r = some 0x26#8 := by
  decide

theorem test_V44_rolZp :
    let r := step (poke ({ start 0x8000#16 [0x26#8, 0x10#8] with p := 0x25#8 }) [(0x0010#16, 0x01#8)])
    field State.p r = some 0x24#8 ∧ cell 0x0010#16 r = some 0x03#8 := by
  decide

theorem test_V45_rolAbs :
    let r := step (poke (start 0x8000#16 [0x2E#8, 0x00#8, 0x03#8]) [(0x0300#16, 0x80#8)])
    field State.p r = some 0xA5#8 ∧ cell 0x0300#16 r = some 0x00#8 := by
  decide

theorem test_V46_lsrAcc :
    let r := step ({ start 0x8000#16 [0x4A#8] with a := 0x81#8 })
    field State.a r = some 0x40#8 ∧ field State.p r = some 0x25#8 := by
  decide

theorem test_V47_lsrAcc :
    let r := step ({ start 0x8000#16 [0x4A#8] with a := 0x01#8, p := 0x25#8 })
    field State.a r = some 0x00#8 ∧ field State.p r = some 0x26#8 := by
  decide

theorem test_V51_inx :
    let r := step ({ start 0x8000#16 [0xE8#8] with x := 0xFF#8, p := 0x25#8 })
    field State.x r = some 0x00#8 ∧ field State.p r = some 0x27#8 := by
  decide

theorem test_V52_inx :
    let r := step ({ start 0x8000#16 [0xE8#8] with x := 0x7F#8 })
    field State.x r = some 0x80#8 ∧ field State.p r = some 0xA4#8 := by
  decide

theorem test_V53_dex :
    let r := step ({ start 0x8000#16 [0xCA#8] with x := 0x00#8 })
    field State.x r = some 0xFF#8 ∧ field State.p r = some 0xA4#8 := by
  decide

theorem test_V54_dex :
    let r := step ({ start 0x8000#16 [0xCA#8] with x := 0x01#8 })
    field State.x r = some 0x00#8 ∧ field State.p r = some 0x26#8 := by
  decide

theorem test_V55_incAbs :
    let r := step (poke (start 0x8000#16 [0xEE#8, 0x03#8, 0x02#8]) [(0x0203#16, 0x7F#8)])
    field State.p r = some 0xA4#8 ∧ cell 0x0203#16 r = some 0x80#8 := by
  decide

theorem test_V56_incZp :
    let r := step (poke (start 0x8000#16 [0xE6#8, 0x10#8]) [(0x0010#16, 0xFF#8)])
    field State.p r = some 0x26#8 ∧ cell 0x0010#16 r = some 0x00#8 := by
  decide

theorem test_V57_decZp :
    let r := step (poke (start 0x8000#16 [0xC6#8, 0x10#8]) [(0x0010#16, 0x01#8)])
    field State.p r = some 0x26#8 ∧ cell 0x0010#16 r = some 0x00#8 := by
  decide

theorem test_V58_decAbsX :
    let r := step (poke ({ start 0x8000#16 [0xDE#8, 0xFF#8, 0x02#8] with x := 0x01#8 }) [(0x0300#16, 0x00#8)])
    field State.p r = some 0xA4#8 ∧ cell 0x0300#16 r = some 0xFF#8 := by
  decide

theorem test_V59_cmpImm :
    let r := step ({ start 0x8000#16 [0xC9#8, 0x05#8] with a := 0x01#8 })
    field State.p r = some 0x26#8 ∧ pcOf r = some 0x8002#16 := by
  decide

theorem test_V61_cmpImm :
    let r := step ({ start 0x8000#16 [0xC9#8, 0x00#8] with a := 0x00#8 })
    field State.p r = some 0xA5#8 ∧ pcOf r = some 0x8002#16 := by
  decide

theorem test_V65_cpxImm :
    let r := step ({ start 0x8000#16 [0xE0#8, 0x10#8] with x := 0x10#8 })
    field State.p r = some 0x25#8 ∧ pcOf r = some 0x8002#16 := by
  decide

theorem test_V66_cpxZp :
    let r := step (poke ({ start 0x8000#16 [0xE4#8, 0x20#8] with x := 0x01#8 }) [(0x0020#16, 0x01#8)])
    field State.p r = some 0x27#8 ∧ pcOf r = some 0x8002#16 := by
  decide

theorem test_V67_cpyImm :
    let r := step ({ start 0x8000#16 [0xC0#8, 0x01#8] with y := 0x00#8 })
    field State.p r = some 0xA4#8 ∧ pcOf r = some 0x8002#16 := by
  decide

theorem test_V68_cpyAbs :
    let r := step (poke ({ start 0x8000#16 [0xCC#8, 0x00#8, 0x03#8] with y := 0x80#8 }) [(0x0300#16, 0x7F#8)])
    field State.p r = some 0x25#8 ∧ pcOf r = some 0x8003#16 := by
  decide

theorem test_V69_bitZp :
    let r := step (poke ({ start 0x8000#16 [0x24#8, 0x10#8] with a := 0x01#8 }) [(0x0010#16, 0xC1#8)])
    field State.p r = some 0xE6#8 ∧ pcOf r = some 0x8002#16 := by
  decide

theorem test_V71_bitAbs :
    let r := step (poke ({ start 0x8000#16 [0x2C#8, 0x00#8, 0x03#8] with a := 0x80#8 }) [(0x0300#16, 0x80#8)])
    field State.p r = some 0xA6#8 ∧ pcOf r = some 0x8003#16 := by
  decide

theorem test_V72_bitZp :
    let r := step (poke ({ start 0x8000#16 [0x24#8, 0x10#8] with a := 0xFF#8, p := 0xE6#8 }) [(0x0010#16, 0x00#8)])
    field State.p r = some 0x24#8 ∧ pcOf r = some 0x8002#16 := by
  decide

theorem test_V74_sec :
    let r := step (start 0x8000#16 [0x38#8])
    field State.p r = some 0x25#8 ∧ pcOf r = some 0x8001#16 := by
  decide

theorem test_V75_clc :
    let r := step ({ start 0x8000#16 [0x18#8] with p := 0x27#8 })
    field State.p r = some 0x26#8 ∧ pcOf r = some 0x8001#16 := by
  decide

theorem test_V76_bcc :
    let r := step (start 0x8000#16 [0x90#8, 0x02#8])
    pcOf r = some 0x8004#16 := by
  decide

theorem test_V78_bcs :
    let r := step ({ start 0x8000#16 [0xB0#8, 0x02#8] with p := 0x25#8 })
    pcOf r = some 0x8004#16 := by
  decide

theorem test_V79_beq :
    let r := step ({ start 0x8000#16 [0xF0#8, 0xFE#8] with p := 0x26#8 })
    pcOf r = some 0x8000#16 := by
  decide

theorem test_V81_bne :
    let r := step (start 0x8008#16 [0xD0#8, 0xFA#8])
    pcOf r = some 0x8004#16 := by
  decide

theorem test_V83_bmi :
    let r := step ({ start 0x8000#16 [0x30#8, 0x10#8] with p := 0xA4#8 })
    pcOf r = some 0x8012#16 := by
  decide

theorem test_V84_bpl :
    let r := step (start 0x8100#16 [0x10#8, 0x80#8])
    pcOf r = some 0x8082#16 := by
  decide

theorem test_V85_bpl :
    let r := step (start 0x0000#16 [0x10#8, 0x80#8])
    pcOf r = some 0xFF82#16 := by
  decide

theorem test_V86_bne :
    let r := step (start 0xFFF0#16 [0xD0#8, 0x7F#8])
    pcOf r = some 0x0071#16 := by
  decide

theorem test_V90_bcc :
    let r := step (start 0xFFFF#16 [0x90#8, 0x05#8])
    pcOf r = some 0x0006#16 := by
  decide

theorem test_V91_jmpAbs :
    let r := step (start 0x8000#16 [0x4C#8, 0x00#8, 0x90#8])
    pcOf r = some 0x9000#16 := by
  decide

theorem test_V93_jmpAbs :
    let r := step (start 0x8000#16 [0x4C#8, 0x01#8, 0x80#8])
    pcOf r = some 0x8001#16 := by
  decide

theorem test_V95_jsrAbs :
    let r := step (start 0x8000#16 [0x20#8, 0x06#8, 0x80#8])
    field State.sp r = some 0xFB#8 ∧ cell 0x01FD#16 r = some 0x80#8 ∧ cell 0x01FC#16 r = some 0x02#8 ∧ pcOf r = some 0x8006#16 := by
  decide

theorem test_V96_jsrAbs :
    let r := step ({ start 0x90FE#16 [0x20#8, 0x34#8, 0x12#8] with sp := 0x00#8 })
    field State.sp r = some 0xFE#8 ∧ cell 0x0100#16 r = some 0x91#8 ∧ cell 0x01FF#16 r = some 0x00#8 ∧ pcOf r = some 0x1234#16 := by
  decide

theorem test_V98_rts :
    let r := step (poke ({ start 0x8000#16 [0x60#8] with sp := 0xFB#8 }) [(0x01FC#16, 0x02#8), (0x01FD#16, 0x80#8)])
    field State.sp r = some 0xFD#8 ∧ pcOf r = some 0x8003#16 := by
  decide

theorem test_V99_rts :
    let r := step (poke ({ start 0x8000#16 [0x60#8] with sp := 0xFE#8 }) [(0x01FF#16, 0xFF#8), (0x0100#16, 0xFF#8)])
    field State.sp r = some 0x00#8 ∧ pcOf r = some 0x0000#16 := by
  decide

theorem test_V101_php :
    let r := step (start 0x8000#16 [0x08#8])
    field State.sp r = some 0xFC#8 ∧ cell 0x01FD#16 r = some 0x34#8 := by
  decide

theorem test_V102_php :
    let r := step ({ start 0x8000#16 [0x08#8] with p := 0xA5#8, sp := 0x00#8 })
    field State.sp r = some 0xFF#8 ∧ cell 0x0100#16 r = some 0xB5#8 := by
  decide

theorem test_V103_nop :
    let r := step (start 0x8000#16 [0xEA#8])
    pcOf r = some 0x8001#16 := by
  decide

theorem test_V104_halt :
    let r := step ({ start 0x8000#16 [0x00#8] with a := 0x12#8, p := 0xA5#8 })
    runStateOf r = some (.halted) ∧ pcOf r = some 0x8001#16 := by
  decide

theorem test_V105_illegal :
    let r := step (start 0x8000#16 [0x02#8])
    runStateOf r = some (.faulted (.illegalOpcode 0x02#8)) ∧ pcOf r = some 0x8001#16 := by
  decide

theorem test_V106_illegal :
    let r := step (start 0xFFFF#16 [0xFF#8])
    runStateOf r = some (.faulted (.illegalOpcode 0xFF#8)) ∧ pcOf r = some 0x0000#16 := by
  decide

theorem test_V110_ldaAbs :
    let r := step (poke (start 0xFFFE#16 [0xAD#8, 0x34#8, 0x12#8]) [(0x1234#16, 0x9A#8)])
    field State.a r = some 0x9A#8 ∧ field State.p r = some 0xA4#8 := by
  decide

theorem test_V112_halt :
    let r := step (start 0x0000#16 [0x00#8])
    runStateOf r = some (.halted) ∧ pcOf r = some 0x0001#16 := by
  decide

/-! ### Steps from a stopped core, and withFetchWord -/

/-- 95_test_vectors.md V120. -/
theorem test_V120_no_step_from_faulted :
    runStateOf (step { State.reset with runState := .faulted (.illegalOpcode 0x02#8) }) = none := by
  decide

theorem test_withFetchWord_runs_lda : field State.a (step (State.reset.withFetchWord 16 0x80A9)) = some 0x80#8 := by
  decide

theorem test_withFetchWord_runs_jmp : pcOf (step (State.reset.withFetchWord 24 0x90004C)) = some 0x9000#16 := by
  decide

/-! ### Host operations: vectors of 95_test_vectors.md section 2.14 -/

/-- V114 and V115: load, then reset. -/
theorem test_V115_boot :
    pcOf (boot [0xA9#8, 0x05#8, 0x00#8]) = some 0x8000#16 ∧ cell 0x8001#16 (boot [0xA9#8, 0x05#8, 0x00#8]) = some 0x05#8 ∧
    cell 0xFFFD#16 (boot [0xA9#8, 0x05#8, 0x00#8]) = some 0x80#8 := by
  decide

/-- V116: reset() keeps Y and memory. -/
theorem test_V116_reset_keeps_y :
    ∃ t, performs .reset { State.reset with x := 0x09#8, y := 0x07#8, runState := .halted } (.next t) ∧
      t.y = 0x07#8 ∧ t.x = 0x00#8 :=
  ⟨_, rfl, by decide, by decide⟩

/-- V117: the vector a host writes is where reset() goes. -/
theorem test_V117_reset_reads_the_vector :
    ∃ t, performsAll [.write 0xFFFC#16 0x00#8, .write 0xFFFD#16 0x06#8, .reset] State.reset (.next t) ∧
      t.pc = 0x0600#16 :=
  ⟨_, ⟨_, rfl, _, rfl, _, rfl, rfl⟩, by decide⟩

/-- The program of S2, `[LDA #0x05, HALT]`. -/
def loadThenHalt : State := start 0x8000#16 [0xA9#8, 0x05#8, 0x00#8]

/-- S2: it halts after two steps; the observer sees the first of them only (R74). -/
theorem test_S2_observer_calls :
    ∃ e, runFor 5 loadThenHalt = .next e ∧ e.observed.length = 1 ∧ e.last.final = true :=
  ⟨_, rfl, by decide, by decide⟩

/-- S2 under run(): it returns Halted with A = 0x05. -/
theorem test_S2_run_returns_halted :
    ∃ u t, runs loadThenHalt [{ seen := u, writes := [] }] t .halted ∧ t.a = 0x05#8 :=
  ⟨_, _, ⟨rfl, by decide, rfl, by decide, by decide⟩, by decide⟩

/-- An observer that writes an illegal opcode over the HALT is obeyed by the next step (R46, R194). -/
theorem test_run_observer_write_is_seen :
    ∃ u t, runs loadThenHalt [{ seen := u, writes := [(0x8002#16, 0x02#8)] }] t (.illegalOpcode 0x02#8) :=
  ⟨_, _, rfl, by decide, rfl, by decide, by decide⟩

/-! ### Witnesses: the hypotheses of the obligations can be met -/

/-- A core about to run the instruction given by its bytes. -/
def ready (code : List Byte) : State := start 0x8000#16 code

theorem witness_CanonicalMemoriesWithEqualReadsAreEqual :
    (ready [0xEA#8]).MemoryCanonical ∧ (ready [0xEA#8]).mem ≠ [] := by
  unfold State.MemoryCanonical
  decide

theorem witness_AccessorsAndMemoryShowTheWholeState :
    (ready [0xEA#8]).MemoryCanonical ∧ visible (ready [0xEA#8]) = visible (ready [0xEA#8]) := by
  unfold State.MemoryCanonical
  decide

theorem witness_OperandLengthDependsOnTheModeAlone :
    (∃ d, opTable 0xAA#8 = some d ∧ d.mode = .implied) ∧ (∃ d, opTable 0xD0#8 = some d ∧ d.mode = .relative) ∧
    (∃ d, opTable 0xB9#8 = some d ∧ d.mode = .absoluteY) :=
  ⟨⟨_, rfl, rfl⟩, ⟨_, rfl, rfl⟩, ⟨_, rfl, rfl⟩⟩

theorem witness_DecodingAnEncodedInstructionGivesItBack : (Instr.ldaAbs 0xFFFF#16).wellFormed = true := by decide

theorem witness_DecodedBytesAreTheEncoding :
    decode [0xAD#8, 0xFF#8, 0x00#8, 0x60#8] = .ok (.ldaAbs 0x00FF#16, [0x60#8]) := by rfl

/-- Both clauses, at a pointer of 0xFF and at the top address. -/
theorem witness_DecodedOperandsMatchTheResolver :
    (start 0x8001#16 [0xFF#8]).read8 0x8001#16 = 0xFF#8 ∧
    (start 0xFFFF#16 [0x34#8, 0x12#8]).read8 0xFFFF#16 = loByte 0x1234#16 ∧
    (start 0xFFFF#16 [0x34#8, 0x12#8]).read8 (0xFFFF#16 + 1#16) = hiByte 0x1234#16 := by
  decide

/-- A JSR outside the stack page, with SP at its boundary value 0x00. -/
theorem witness_JsrPushesItsLastAddressAndJumps :
    let s := { ready [0x06#8, 0x80#8] with sp := 0x00#8 }
    s.pc ∉ [0x0100#16 + s.sp.setWidth 16, 0x0100#16 + (s.sp - 1#8).setWidth 16] ∧
    s.pc + 1#16 ∉ [0x0100#16 + s.sp.setWidth 16, 0x0100#16 + (s.sp - 1#8).setWidth 16] := by
  decide

/-- The overlap of vector V111: the operand bytes lie in the cells JSR pushes to. -/
theorem witness_JsrReadsItsTargetAfterThePushes :
    let s := start 0x01FC#16 [0x00#8, 0x90#8]
    s.read8 s.pc = loByte 0x9000#16 ∧ s.read8 (s.pc + 1#16) = hiByte 0x9000#16 ∧ s.pc ∈ jsrCells s := by
  decide

theorem witness_RtsReturnsAfterTheMatchingJsr :
    ∃ (t u : State), exec (.jsrAbs 0x9000#16) (ready []) = .next t ∧ u.sp = t.sp ∧ u.pc ≠ t.pc ∧
      ∀ q ∈ jsrCells (ready []), u.read8 q = t.read8 q :=
  ⟨_, (jsrPushed (ready [])).setPc 0x9001#16, rfl, rfl, by decide, fun _ _ => rfl⟩

theorem witness_NopOnlyAdvancesPc :
    ∃ (T : Byte → Option Descriptor) (d : Descriptor), (ready [0x80#8]).runState = .running ∧
      T ((ready [0x80#8]).read8 (ready [0x80#8]).pc) = some d ∧ d.handler = .nop ∧ d.operandLength = 1 :=
  ⟨fun _ => some { handler := .nop, mode := .immediate, operandLength := 1, ownsPc := .no }, _, rfl, rfl, rfl, rfl⟩

theorem witness_HaltStopsAndDoesNothingElse :
    State.reset.runState = .running ∧ State.reset.read8 State.reset.pc = 0x00#8 := by
  decide

theorem witness_IllegalOpcodeFaultsTheCore :
    (ready [0x02#8]).runState = .running ∧ (ready [0x02#8]).read8 (ready [0x02#8]).pc = 0x02#8 ∧
    (ready [0xFF#8]).read8 (ready [0xFF#8]).pc = 0xFF#8 ∧ opTable 0x02#8 = none ∧ opTable 0xFF#8 = none := by
  decide

theorem witness_MalformedRowRaisesInvalidAddressingMode :
    ∃ (T : Byte → Option Descriptor) (d : Descriptor), (ready [0x80#8]).runState = .running ∧
      T ((ready [0x80#8]).read8 (ready [0x80#8]).pc) = some d ∧ d.handler = .asl ∧ d.mode = .implied :=
  ⟨fun _ => some { handler := .asl, mode := .implied, operandLength := 0, ownsPc := .no }, _, rfl, rfl, rfl, rfl⟩

theorem witness_StoppedCoreHasNoStep :
    (State.reset.halt).runState = .halted ∧
    (State.reset.fatal .invalidAddressingMode).runState = .faulted .invalidAddressingMode := by
  decide

/-- Across the top of the address space, with a three-byte instruction. -/
theorem witness_StepRunsTheDecodedInstruction :
    let s := start 0xFFFE#16 [0xAD#8, 0x34#8, 0x12#8]
    s.runState = .running ∧ (Instr.ldaAbs 0x1234#16).wellFormed = true ∧
    ∀ k (h : k < (encode (.ldaAbs 0x1234#16)).length),
      s.read8 (s.pc + BitVec.ofNat 16 k) = (encode (.ldaAbs 0x1234#16))[k] := by
  decide

/-- A step that stays Running, one that halts and one that faults. -/
theorem witness_OnlyOpcodesStopTheCore :
    runStateOf (step (ready [0xEA#8])) = some .running ∧ runStateOf (step (ready [0x00#8])) = some .halted ∧
    runStateOf (step (ready [0xFF#8])) = some (.faulted (.illegalOpcode 0xFF#8)) := by
  decide

theorem witness_FlagsOutsideTheTableAreKept :
    ∃ t, exec (.adcImm 0x01#8) (ready []) = .next t ∧ t.flag .i = true :=
  ⟨_, rfl, by decide⟩

theorem witness_RegistersAndMemoryHaveOnlyTheirWriters :
    ∃ t, exec (.ldyImm 0x07#8) { ready [] with a := 0x01#8, x := 0x02#8 } = .next t ∧ t.a = 0x01#8 ∧ t.y = 0x07#8 :=
  ⟨_, rfl, by decide, by decide⟩

/-- A push that does change a byte, at each end of the stack page. -/
theorem witness_StackStaysInItsPage :
    cell 0x0100#16 (exec .php { ready [] with sp := 0x00#8 }) = some 0x34#8 ∧
    cell 0x01FF#16 (exec .php { ready [] with sp := 0xFF#8 }) = some 0x34#8 := by
  decide

theorem witness_StepKeepsTheInvariant : (ready [0x85#8, 0x10#8]).Inv ∧ pcOf (step (ready [0x85#8, 0x10#8])) = some 0x8002#16 := by
  refine ⟨⟨?_, ?_, ?_⟩, by decide⟩
  · unfold State.MemoryCanonical
    decide
  · unfold State.InertFlagsAtReset
    decide
  · unfold State.AddressingNeverInvalid
    decide

/-- Commands of every kind, a run among them, with an answer. -/
theorem witness_HostCommandsKeepTheInvariant :
    State.reset.Inv ∧ ∃ t, performsAll [.construct, .load [0xA9#8, 0x05#8, 0x00#8], .reset, .step,
      .write 0x0010#16 0x01#8, .run []] State.reset (.next t) ∧ t.runState = .halted := by
  refine ⟨⟨?_, ?_, ?_⟩, _,
    ⟨_, rfl, _, rfl, _, rfl, _, rfl, _, rfl, .next _, ⟨[], .halted, trivial, rfl, by decide, by decide⟩, rfl⟩, by decide⟩
  · unfold State.MemoryCanonical
    decide
  · unfold State.InertFlagsAtReset
    decide
  · unfold State.AddressingNeverInvalid
    decide

/-- An image of the greatest length fits, and one byte more does not. -/
theorem witness_LoadCopiesTheImageAndSetsTheVector :
    (List.replicate 32768 (0x01#8 : Byte)).length ≤ 32768 ∧ 32768 < (List.replicate 32769 (0x01#8 : Byte)).length ∧
    (0 : Nat) < (List.replicate 32768 (0x01#8 : Byte)).length ∧ (0 : Nat) ≠ 0x7FFC ∧ (0 : Nat) ≠ 0x7FFD ∧
    (0x7FFF#16 : Word).toNat < 0x8000 ∧ (0x7FFF#16 : Word) ≠ 0xFFFC#16 ∧ (0x7FFF#16 : Word) ≠ 0xFFFD#16 := by
  rw [List.length_replicate, List.length_replicate]
  decide

theorem witness_BootStartsAtTheImage :
    ([0xA9#8, 0x05#8, 0x00#8] : List Byte).length ≤ 32768 ∧ (0 : Nat) < ([0xA9#8, 0x05#8, 0x00#8] : List Byte).length := by
  decide

/-- A run that uses its fuel and one that does not. -/
theorem witness_RunForStopsOrUsesItsFuel :
    (ready [0xEA#8]).runState = .running ∧
    (∃ e, runFor 1 (ready [0xEA#8]) = .next e ∧ e.last.runState = .running) ∧
    ∃ e, runFor 3 (ready [0xEA#8]) = .next e ∧ e.last.runState = .halted :=
  ⟨rfl, ⟨_, rfl, by decide⟩, _, rfl, by decide⟩

theorem witness_RunsCompose :
    (ready [0xEA#8, 0xEA#8]).runState = .running ∧ (∃ t, step (ready [0xEA#8, 0xEA#8]) = .next t) ∧
    ∃ e e', runFor 1 (ready [0xEA#8, 0xEA#8]) = .next e ∧ e.last.runState = .running ∧ runFor 2 e.last = .next e' :=
  ⟨rfl, ⟨_, rfl⟩, _, _, rfl, by decide, rfl⟩

/-- The same write as the input of a run command: the run ends Faulted where the closed run halts. -/
theorem test_run_command_takes_its_writes :
    ∃ t, performs (.run [[(0x8002#16, 0x02#8)]]) loadThenHalt (.next t) ∧ t.runState = .faulted (.illegalOpcode 0x02#8) :=
  ⟨_, ⟨[{ seen := _, writes := _ }], .illegalOpcode 0x02#8, ⟨rfl, trivial⟩, rfl, by decide, rfl, by decide, by decide⟩,
    by decide⟩

/-- One observer, which writes, and a run it makes; and commands with an answer, a run with writes among them. -/
theorem witness_RunsAndHostCommandsHaveOneAnswer :
    (∃ t, performsAll [.reset, .construct, .load [0xA9#8, 0x05#8, 0x00#8], .reset, .run [[(0x8002#16, 0x02#8)]]] State.reset
      (.next t)) ∧
    ∃ (observer : State → HostWrites) (c : ObserverCall) (t : State),
      c.writes = observer c.seen ∧ runs loadThenHalt [c] t (.illegalOpcode 0x02#8) :=
  ⟨⟨_, _, rfl, _, rfl, _, rfl, _, rfl, .next _,
      ⟨[{ seen := _, writes := _ }], .illegalOpcode 0x02#8, ⟨rfl, trivial⟩, rfl, by decide, rfl, by decide, by decide⟩, rfl⟩,
    fun _ => [(0x8002#16, 0x02#8)], { seen := _, writes := [(0x8002#16, 0x02#8)] }, _, rfl,
    rfl, by decide, rfl, by decide, by decide⟩

theorem witness_StoppedCoreHasNoRun :
    (State.reset.halt).runState = .halted ∧
    ∃ r, (State.reset.fatal (.illegalOpcode 0x02#8)).runState = .faulted r :=
  ⟨rfl, _, rfl⟩

end Sys2Proof.Tests
end

section
/-! PROOFS. The shared zero/negative rule (10_state.md R17). -/

namespace Sys2Proof.Proofs

open Sys2Proof.Machine Sys2Proof.Claims

theorem showsZN_setZN (s : State) (v : Byte) : ShowsZN (s.setZN v) v :=
  ⟨flag_setZN_z s v, flag_setZN_n s v⟩

theorem leaves_setZN (s : State) (v : Byte) : Leaves s (s.setZN v) s.a s.x s.y s.sp s.pc [.z, .n] [] := by
  have hflags : ∀ f, f ∉ [Flag.z, Flag.n] → (s.setZN v).flag f = s.flag f := by
    intro f hf
    obtain ⟨hz, hn⟩ : f ≠ .z ∧ f ≠ .n := by simpa using hf
    exact flag_setZN_other s v hz hn
  exact ⟨setZN_a s v, setZN_x s v, setZN_y s v, setZN_sp s v, setZN_pc s v, setZN_runState s v, hflags,
    fun q _ => setZN_read8 s v q⟩

/-- Zero makes the byte 0, whose bit 7 is clear. -/
theorem not_zero_and_negative_of_showsZN {t : State} {v : Byte} (h : ShowsZN t v) :
    ¬ (t.flag .z = true ∧ t.flag .n = true) := by
  obtain ⟨hz, hn⟩ := h
  rintro ⟨zSet, nSet⟩
  have hv : v = 0x00#8 := of_decide_eq_true (hz.symm.trans zSet)
  have hbit : v.getLsbD 7 = true := hn.symm.trans nSet
  simp [hv] at hbit

/-- Settles O1: the flags and the frame of `setZN`, and that no byte is both zero and negative. -/
theorem sharedRuleSetsZeroAndNegative : Obligations.SharedRuleSetsZeroAndNegative := fun s v =>
  ⟨showsZN_setZN s v, leaves_setZN s v, not_zero_and_negative_of_showsZN (showsZN_setZN s v)⟩

end Sys2Proof.Proofs
end

section
/-! PROOFS. The byte write (20_memory.md R32). -/

namespace Sys2Proof.Proofs

open Sys2Proof.Machine Sys2Proof.Claims

/-- No field of the state but its memory is written. -/
theorem write8_eq_with_mem (s : State) (addr : Word) (v : Byte) :
    s.write8 addr v = { s with mem := Memory.write s.mem addr.toNat v } := rfl

/-- Settles O2: the model's read-after-write laws at the written cell and at every other one, and the frame of `write8`. -/
theorem byteWriteSetsOneCell : Obligations.ByteWriteSetsOneCell := fun s addr v =>
  ⟨read8_write8_same s addr v, fun _ hq => read8_write8_other s v hq, _, write8_eq_with_mem s addr v⟩

end Sys2Proof.Proofs
end

section
/-! PROOFS. Operand lengths (30_encoding.md R51): the mode alone fixes them, in the dispatch table and in the encoding. -/

namespace Sys2Proof.Proofs

open Sys2Proof.Laws.EncodedShape

/-- The per-instruction laws of the encoding's shape, gathered into one statement about every instruction. -/
theorem encodedShape : ∀ i : Instr, Statement i
  | .ldaImm d => ldaImm d | .ldaZp d => ldaZp d | .ldaZpX d => ldaZpX d | .ldaAbs a => ldaAbs a
  | .ldaAbsX a => ldaAbsX a | .ldaAbsY a => ldaAbsY a | .ldaIndX d => ldaIndX d | .ldaIndY d => ldaIndY d
  | .ldxImm d => ldxImm d | .ldxZp d => ldxZp d | .ldxZpY d => ldxZpY d | .ldxAbs a => ldxAbs a
  | .ldxAbsY a => ldxAbsY a | .ldyImm d => ldyImm d | .ldyZp d => ldyZp d | .ldyZpX d => ldyZpX d
  | .ldyAbs a => ldyAbs a | .ldyAbsX a => ldyAbsX a | .staZp d => staZp d | .staZpX d => staZpX d
  | .staAbs a => staAbs a | .staAbsX a => staAbsX a | .staAbsY a => staAbsY a | .staIndX d => staIndX d
  | .staIndY d => staIndY d | .tax => tax | .txa => txa | .adcImm d => adcImm d | .adcZp d => adcZp d
  | .adcZpX d => adcZpX d | .adcAbs a => adcAbs a | .adcAbsX a => adcAbsX a | .adcAbsY a => adcAbsY a
  | .adcIndX d => adcIndX d | .adcIndY d => adcIndY d | .andImm d => andImm d | .andZp d => andZp d
  | .andZpX d => andZpX d | .andAbs a => andAbs a | .andAbsX a => andAbsX a | .andAbsY a => andAbsY a
  | .andIndX d => andIndX d | .andIndY d => andIndY d | .oraImm d => oraImm d | .oraZp d => oraZp d
  | .oraZpX d => oraZpX d | .oraAbs a => oraAbs a | .oraAbsX a => oraAbsX a | .oraAbsY a => oraAbsY a
  | .oraIndX d => oraIndX d | .oraIndY d => oraIndY d | .aslAcc => aslAcc | .aslZp d => aslZp d
  | .aslZpX d => aslZpX d | .aslAbs a => aslAbs a | .aslAbsX a => aslAbsX a | .rolAcc => rolAcc | .rolZp d => rolZp d
  | .rolZpX d => rolZpX d | .rolAbs a => rolAbs a | .rolAbsX a => rolAbsX a | .lsrAcc => lsrAcc | .inx => inx
  | .dex => dex | .incZp d => incZp d | .incZpX d => incZpX d | .incAbs a => incAbs a | .incAbsX a => incAbsX a
  | .decZp d => decZp d | .decZpX d => decZpX d | .decAbs a => decAbs a | .decAbsX a => decAbsX a
  | .cmpImm d => cmpImm d | .cmpZp d => cmpZp d | .cmpZpX d => cmpZpX d | .cmpAbs a => cmpAbs a
  | .cmpAbsX a => cmpAbsX a | .cmpAbsY a => cmpAbsY a | .cmpIndX d => cmpIndX d | .cmpIndY d => cmpIndY d
  | .cpxImm d => cpxImm d | .cpxZp d => cpxZp d | .cpxAbs a => cpxAbs a | .cpyImm d => cpyImm d | .cpyZp d => cpyZp d
  | .cpyAbs a => cpyAbs a | .bitZp d => bitZp d | .bitAbs a => bitAbs a | .sec => sec | .clc => clc | .bcc r => bcc r
  | .bcs r => bcs r | .beq r => beq r | .bne r => bne r | .bmi r => bmi r | .bpl r => bpl r | .jmpAbs a => jmpAbs a
  | .jsrAbs a => jsrAbs a | .rts => rts | .php => php | .nop => nop | .halt => halt

theorem encode_length (i : Instr) : (encode i).length = i.form.2.operandLength + 1 := by
  obtain ⟨-, b, operand, hencode, -, hlength⟩ := encodedShape i
  rw [hencode, List.length_cons, hlength]

theorem opRows_wellFormed : ∀ r ∈ opRows, r.entry.wellFormed = true := by decide

theorem exists_row_of_opTable {b : Byte} {d : Descriptor} (h : opTable b = some d) : ∃ r ∈ opRows, r.entry = d := by
  obtain ⟨r, hfind, hentry⟩ := Option.map_eq_some_iff.mp h
  exact ⟨r, List.mem_of_find?_eq_some hfind, hentry⟩

/-- The default table has no malformed row (R58). -/
theorem wellFormed_of_opTable {b : Byte} {d : Descriptor} (h : opTable b = some d) : d.wellFormed = true := by
  obtain ⟨r, hrow, rfl⟩ := exists_row_of_opTable h
  exact opRows_wellFormed r hrow

theorem operandLength_of_wellFormed {d : Descriptor} (h : d.wellFormed = true) :
    d.operandLength = d.mode.operandLength := by
  simp only [Descriptor.wellFormed, Bool.and_eq_true] at h
  obtain ⟨⟨-, hlength⟩, -⟩ := h
  exact eq_of_beq hlength

/-- R51's three classes of modes. -/
theorem operandLength_of_mode_class (m : Mode) :
    (m ∈ [.implied, .accumulator] → m.operandLength = 0) ∧
    (m ∈ [.immediate, .zeroPage, .zeroPageX, .zeroPageY, .indirectX, .indirectY, .relative] → m.operandLength = 1) ∧
    (m ∈ [.absolute, .absoluteX, .absoluteY] → m.operandLength = 2) := by
  cases m <;> decide

/-- Settles O8: a table entry has its mode's operand length because it is well formed, and an encoding is the opcode byte
and as many bytes as its mode takes. -/
theorem operandLengthDependsOnTheModeAlone : Obligations.OperandLengthDependsOnTheModeAlone := by
  refine ⟨fun b d h => ?_, fun i => ?_⟩
  · rw [operandLength_of_wellFormed (wellFormed_of_opTable h)]
    exact operandLength_of_mode_class d.mode
  · obtain ⟨hnone, hone, htwo⟩ := operandLength_of_mode_class i.form.2
    rw [encode_length]
    exact ⟨fun hm => by rw [hnone hm], fun hm => by rw [hone hm], fun hm => by rw [htwo hm]⟩

end Sys2Proof.Proofs
end

section
/-! PROOFS. The resolver's addresses as numbers (40_dispatch_and_addressing.md R75 to R80): a sum of bytes wraps within
page 0, a word indexed by a byte wraps at 65536. -/

namespace Sys2Proof.Proofs

open Sys2Proof.Machine

theorem zext16_eq_ofNat (b : Byte) : zext16 b = BitVec.ofNat 16 b.toNat := (BitVec.ofNat_toNat 16 b).symm

theorem zext16_add_eq_ofNat (b c : Byte) : zext16 (b + c) = BitVec.ofNat 16 ((b.toNat + c.toNat) % 256) := by
  rw [zext16_eq_ofNat, BitVec.toNat_add]

theorem joinBytes_eq_ofNat (hi lo : Byte) : joinBytes hi lo = BitVec.ofNat 16 (hi.toNat * 256 + lo.toNat) := by
  rw [← joinBytes_toNat, BitVec.ofNat_toNat, BitVec.setWidth_eq]

theorem read16_eq_ofNat (s : State) (addr : Word) :
    s.read16 addr = BitVec.ofNat 16 ((s.read8 (addr + 1#16)).toNat * 256 + (s.read8 addr).toNat) :=
  joinBytes_eq_ofNat _ _

theorem ofNat_mod_65536 (n : Nat) : BitVec.ofNat 16 (n % 65536) = BitVec.ofNat 16 n :=
  BitVec.eq_of_toNat_eq (Nat.mod_mod n 65536)

theorem read16_add_zext16_eq_ofNat (s : State) (addr : Word) (b : Byte) :
    s.read16 addr + zext16 b =
      BitVec.ofNat 16 (((s.read8 (addr + 1#16)).toNat * 256 + (s.read8 addr).toNat + b.toNat) % 65536) := by
  rw [read16_eq_ofNat, zext16_eq_ofNat, BitVec.ofNat_add_ofNat, ofNat_mod_65536]

/-- The pointer `(b + c) mod 256` and the cell after it, which wraps within page 0 as well (R80). -/
theorem zeroPageWord_add_eq_ofNat (b c : Byte) (s : State) :
    zeroPageWord (b + c) s = BitVec.ofNat 16
      ((s.read8 (BitVec.ofNat 16 (((b.toNat + c.toNat) % 256 + 1) % 256))).toNat * 256 +
        (s.read8 (BitVec.ofNat 16 ((b.toNat + c.toNat) % 256))).toNat) := by
  have hnext : zext16 (b + c + 1#8) = BitVec.ofNat 16 (((b.toNat + c.toNat) % 256 + 1) % 256) := by
    rw [zext16_add_eq_ofNat, BitVec.toNat_add, BitVec.toNat_ofNat]
  rw [zeroPageWord, joinBytes_eq_ofNat, hnext, zext16_add_eq_ofNat]

/-- Settles O12: each of the eight modes is the resolver's case for it, and the lemma that says that case as a number. -/
theorem resolverComputesTheEffectiveAddress : Obligations.ResolverComputesTheEffectiveAddress := fun s =>
  ⟨rfl, rfl,
    congrArg some (zext16_eq_ofNat (s.read8 s.pc)),
    congrArg some (zext16_add_eq_ofNat (s.read8 s.pc) s.x),
    congrArg some (zext16_add_eq_ofNat (s.read8 s.pc) s.y),
    congrArg some (read16_eq_ofNat s s.pc),
    congrArg some (read16_add_zext16_eq_ofNat s s.pc s.x),
    congrArg some (read16_add_zext16_eq_ofNat s s.pc s.y),
    congrArg some (zeroPageWord_add_eq_ofNat (s.read8 s.pc) s.x s)⟩

end Sys2Proof.Proofs
end

section
/-! PROOFS. Decoder and encoder agree (30_encoding.md R50, R54, R55): the decoder's answer is the instruction that the
table entry of the first byte builds from the operand bytes, and no two opcode bytes share an entry. -/

namespace Sys2Proof.Proofs

/-! ### What the decoder answers -/

/-- A byte of an operand, where a missing one reads 0 as in `decode`. -/
def operandAt (operand : List Byte) (k : Nat) : Byte := operand.getD k 0

theorem decodeEntry_eq_ok {b : Byte} {h : Handler} {m : Mode} {b1 b2 : Byte} {bytes rest : List Byte} {i : Instr} :
    decodeEntry b h m b1 b2 bytes = .ok (i, rest) ↔ buildInstr h m b1 b2 = some i ∧ bytes = rest := by
  unfold decodeEntry
  split
  · next j hj => simp [hj]
  · next hj => simp [hj]

/-- Everything the decoder can accept: an opcode byte with a table entry, as many operand bytes as the entry says, and
the instruction the entry builds from them. -/
theorem decode_eq_ok_iff {bytes : List Byte} {i : Instr} {rest : List Byte} :
    decode bytes = .ok (i, rest) ↔
      ∃ b e operand, opTable b = some e ∧ bytes = b :: (operand ++ rest) ∧ operand.length = e.operandLength ∧
        e.operandLength ≤ 2 ∧ buildInstr e.handler e.mode (operandAt operand 0) (operandAt operand 1) = some i := by
  constructor
  · intro h
    cases bytes with
    | nil => cases h
    | cons b bytes =>
      unfold decode at h
      cases hb : opTable b with
      | none => simp [hb] at h
      | some e =>
        simp only [hb] at h
        split at h
        · next hlen =>
          obtain ⟨hi, rfl⟩ := decodeEntry_eq_ok.mp h
          exact ⟨b, e, [], hb, rfl, hlen.symm, by omega, hi⟩
        · next b1 _ hlen =>
          obtain ⟨hi, rfl⟩ := decodeEntry_eq_ok.mp h
          exact ⟨b, e, [b1], hb, rfl, hlen.symm, by omega, hi⟩
        · next b1 b2 _ hlen =>
          obtain ⟨hi, rfl⟩ := decodeEntry_eq_ok.mp h
          exact ⟨b, e, [b1, b2], hb, rfl, hlen.symm, by omega, hi⟩
        · cases h
  · rintro ⟨b, e, operand, hb, rfl, hlen, hle, hi⟩
    match operand, hlen with
    | [], hlen => simpa [decode, hb, ← hlen, decodeEntry_eq_ok, operandAt] using hi
    | [b1], hlen => simpa [decode, hb, ← hlen, decodeEntry_eq_ok, operandAt] using hi
    | [b1, b2], hlen => simpa [decode, hb, ← hlen, decodeEntry_eq_ok, operandAt] using hi
    | _ :: _ :: _ :: _, hlen => simp at hlen; omega

/-! ### An instruction and the entry and operand that build it -/

/-- The operand bytes in an instruction's encoding build the instruction. -/
theorem buildInstr_encode_tail (i : Instr) :
    buildInstr i.form.1 i.form.2 (operandAt (encode i).tail 0) (operandAt (encode i).tail 1) = some i := by
  cases i <;> simp [Instr.form, encode, operandAt, buildInstr]

/-- What a table entry builds has the entry's mnemonic and mode, and the given bytes as its encoded operand. -/
theorem form_and_operand_of_buildInstr {h : Handler} {m : Mode} {b1 b2 : Byte} {i : Instr}
    (hi : buildInstr h m b1 b2 = some i) :
    i.form = (h, m) ∧ (encode i).tail = [b1, b2].take m.operandLength := by
  unfold buildInstr at hi
  split at hi <;> cases hi <;> simp [Instr.form, encode, Mode.operandLength]

/-! ### The two round trips -/

theorem descriptor_operandLength_le (i : Instr) : i.descriptor.operandLength ≤ 2 := by
  change i.form.2.operandLength ≤ 2
  cases i.form.2 <;> decide

/-- Settles O9: the encoding is an opcode byte the table gives the instruction's own entry, and operand bytes from which
that entry builds the instruction. -/
theorem decodingAnEncodedInstructionGivesItBack : Obligations.DecodingAnEncodedInstructionGivesItBack := by
  intro i _ rest
  obtain ⟨-, b, operand, hencode, hb, hlength⟩ := encodedShape i
  have hi := buildInstr_encode_tail i
  rw [hencode] at hi ⊢
  exact decode_eq_ok_iff.mpr
    ⟨b, i.descriptor, operand, hb, rfl, hlength, descriptor_operandLength_le i, hi⟩

theorem opRows_entry_nodup : (opRows.map OpRow.entry).Nodup := by decide

/-- R54 lists each pair of mnemonic and mode once: no two opcode bytes have the same entry. -/
theorem opTable_injective {b b' : Byte} {e : Descriptor} (h : opTable b = some e) (h' : opTable b' = some e) :
    b = b' := by
  obtain ⟨r, hr, rfl⟩ := Option.map_eq_some_iff.mp h
  obtain ⟨r', hr', hentry⟩ := Option.map_eq_some_iff.mp h'
  have hrow : r' = r := List.inj_on_of_nodup_map opRows_entry_nodup (List.mem_of_find?_eq_some hr')
    (List.mem_of_find?_eq_some hr) hentry
  have hb : r.opcode = b := by simpa using List.find?_some hr
  have hb' : r'.opcode = b' := by simpa using List.find?_some hr'
  rw [← hb, ← hb', hrow]

/-- A well-formed entry is fixed by its mnemonic and mode. -/
theorem eq_descriptor_of_form {i : Instr} {e : Descriptor} (he : e.wellFormed = true)
    (hform : i.form = (e.handler, e.mode)) : e = i.descriptor := by
  have howner : e.ownsPc = e.handler.ownsPc := by
    simp only [Descriptor.wellFormed, Descriptor.ownerMatches, Bool.and_eq_true, beq_iff_eq] at he
    exact he.2
  have hlength := operandLength_of_wellFormed he
  cases e
  simp_all [Instr.descriptor]

theorem take_operand {operand : List Byte} {n : Nat} (hlength : operand.length = n) (hn : n ≤ 2) :
    [operandAt operand 0, operandAt operand 1].take n = operand := by
  subst hlength
  match operand with
  | [] => rfl
  | [_] => rfl
  | [_, _] => rfl
  | _ :: _ :: _ :: _ => simp at hn

/-- Settles O10: the entry that was looked up is the entry of the instruction it built, no other opcode byte has that
entry, and the operand bytes it consumed are the encoded operand. -/
theorem decodedBytesAreTheEncoding : Obligations.DecodedBytesAreTheEncoding := by
  intro bytes i rest h
  obtain ⟨b, e, operand, hb, rfl, hlength, hle, hi⟩ := decode_eq_ok_iff.mp h
  obtain ⟨hwf, b', operand', hencode, hb', -⟩ := encodedShape i
  obtain ⟨hform, htail⟩ := form_and_operand_of_buildInstr hi
  have he := wellFormed_of_opTable hb
  obtain rfl : b = b' := opTable_injective (hb.trans (congrArg some (eq_descriptor_of_form he hform))) hb'
  have hoperand : operand' = operand := by
    rw [hencode, List.tail_cons, ← operandLength_of_wellFormed he, take_operand hlength hle] at htail
    exact htail
  exact ⟨by rw [hencode, hoperand, List.cons_append], hwf⟩

/-- Settles O11: the decoder is evaluated on each word. -/
theorem writtenOutWordsDecode : Obligations.WrittenOutWordsDecode := by
  unfold Obligations.WrittenOutWordsDecode
  decide

end Sys2Proof.Proofs
end

section
/-! PROOFS. The operand an instruction carries and the one the resolver reads at PC (40_dispatch_and_addressing.md R75 to
R84), the fetch, and the step as R70's dispatch loop over the default table. -/

namespace Sys2Proof.Proofs

open Sys2Proof.Machine

/-! ### Operands in memory at PC -/

/-- A word whose two bytes lie at an address is the word read there. -/
theorem eq_read16 {s : State} {addr a : Word} (hlo : s.read8 addr = loByte a)
    (hhi : s.read8 (addr + 1#16) = hiByte a) : a = s.read16 addr := by
  rw [State.read16, hlo, hhi, joinBytes_hi_lo]

/-- Settles O14: with the operand byte the one at PC, and the operand word the one read at PC, both sides are the same
expression in every mode. -/
theorem decodedOperandsMatchTheResolver : Obligations.DecodedOperandsMatchTheResolver := by
  refine fun s d a => ⟨?_, fun hlo hhi => ?_⟩
  · rintro rfl
    exact ⟨rfl, rfl, rfl, rfl, rfl, rfl, rfl, rfl, rfl, rfl, rfl, rfl⟩
  · obtain rfl := eq_read16 hlo hhi
    exact ⟨rfl, rfl, rfl, rfl, rfl, rfl⟩

/-- The pointer itself and the cell after it, which wraps within page 0 as well (R81, D9). -/
theorem indirectYBase_add_zext16_eq_ofNat (ptr y : Byte) (s : State) :
    indirectYBase ptr s + zext16 y = BitVec.ofNat 16
      (((s.read8 (BitVec.ofNat 16 ((ptr.toNat + 1) % 256))).toNat * 256 +
        (s.read8 (BitVec.ofNat 16 ptr.toNat)).toNat + y.toNat) % 65536) := by
  have hnext : zext16 (ptr + 1#8) = BitVec.ofNat 16 ((ptr.toNat + 1) % 256) := zext16_add_eq_ofNat ptr 1#8
  change zeroPageWord ptr s + zext16 y = _
  rw [zeroPageWord, joinBytes_eq_ofNat, hnext, zext16_eq_ofNat ptr, zext16_eq_ofNat y, BitVec.ofNat_add_ofNat,
    ofNat_mod_65536]

/-- Settles O13: the resolver's case for IndirectY said as a number, and its three failing cases. -/
theorem indirectYAddressAndNoneAddressing : Obligations.IndirectYAddressAndNoneAddressing := fun s =>
  ⟨congrArg some (indirectYBase_add_zext16_eq_ofNat (s.read8 s.pc) s.y s), rfl, rfl, rfl⟩

/-! ### The fetch -/

/-- The bytes fetched begin with the encoding of the instruction decoded. -/
theorem fetchBytes_of_fetchDecode {s : State} {i : Instr} (h : fetchDecode s = some i) :
    ∃ rest, fetchBytes s = encode i ++ rest := by
  unfold fetchDecode at h
  split at h
  · next j rest hj =>
    obtain rfl := Option.some.inj h
    exact ⟨rest, (decodedBytesAreTheEncoding _ _ _ hj).1⟩
  · cases h

/-- What a fetched instruction says about memory: the byte at PC selects its table entry, and its operand bytes are
those after it. -/
theorem entry_and_operand_of_fetchDecode {s : State} {i : Instr} (h : fetchDecode s = some i) :
    opTable (s.read8 s.pc) = some i.descriptor ∧
    (encode i).tail = [s.read8 (s.pc + 1#16), s.read8 (s.pc + 2#16)].take i.form.2.operandLength := by
  obtain ⟨rest, hbytes⟩ := fetchBytes_of_fetchDecode h
  obtain ⟨-, b, operand, hencode, hb, hlength⟩ := encodedShape i
  rw [hencode, fetchBytes, List.cons_append, List.cons.injEq] at hbytes
  obtain ⟨rfl, hoperand⟩ := hbytes
  exact ⟨hb, by rw [hencode, List.tail_cons, hoperand, ← hlength, List.take_left']; rfl⟩

/-- Every table entry builds an instruction, whatever the operand bytes. -/
theorem exists_buildInstr_of_opTable {b : Byte} {e : Descriptor} (h : opTable b = some e) (b1 b2 : Byte) :
    ∃ i, buildInstr e.handler e.mode b1 b2 = some i := by
  have hrows : opRows.all (fun r => (buildInstr r.entry.handler r.entry.mode b1 b2).isSome) = true := rfl
  obtain ⟨r, hr, rfl⟩ := exists_row_of_opTable h
  exact Option.isSome_iff_exists.mp (List.all_eq_true.mp hrows r hr)

/-- An opcode byte with a table entry is fetched as an instruction, for three bytes are as many as any has. -/
theorem exists_fetchDecode_of_opTable {s : State} {e : Descriptor} (h : opTable (s.read8 s.pc) = some e) :
    ∃ i, fetchDecode s = some i := by
  have hle : e.operandLength ≤ 2 := by
    rw [operandLength_of_wellFormed (wellFormed_of_opTable h)]
    cases e.mode <;> decide
  have hbytes : fetchBytes s = s.read8 s.pc :: ((fetchBytes s).tail.take e.operandLength ++
      (fetchBytes s).tail.drop e.operandLength) := by
    rw [List.take_append_drop]; rfl
  have hlength : ((fetchBytes s).tail.take e.operandLength).length = e.operandLength := by
    rw [List.length_take]; exact Nat.min_eq_left hle
  obtain ⟨i, hi⟩ := exists_buildInstr_of_opTable h (operandAt ((fetchBytes s).tail.take e.operandLength) 0)
    (operandAt ((fetchBytes s).tail.take e.operandLength) 1)
  have hdecode := decode_eq_ok_iff.mpr ⟨_, e, _, h, hbytes, hlength, hle, hi⟩
  exact ⟨i, by rw [fetchDecode, hdecode]⟩

theorem fetchDecode_eq_none_iff {s : State} : fetchDecode s = none ↔ opTable (s.read8 s.pc) = none := by
  constructor
  · intro h
    cases he : opTable (s.read8 s.pc) with
    | none => rfl
    | some e =>
      obtain ⟨i, hi⟩ := exists_fetchDecode_of_opTable he
      rw [h] at hi
      cases hi
  · intro h
    cases hi : fetchDecode s with
    | none => rfl
    | some i =>
      rw [(entry_and_operand_of_fetchDecode hi).1] at h
      cases h

/-- The instruction whose bytes lie at PC is the one fetched. -/
theorem fetchDecode_of_bytes {s : State} {i : Instr} {rest : List Byte} (h : fetchBytes s = encode i ++ rest) :
    fetchDecode s = some i := by
  obtain ⟨hwf, -⟩ := encodedShape i
  rw [fetchDecode, h, decodingAnEncodedInstructionGivesItBack i hwf rest]

theorem encode_length_le (i : Instr) : (encode i).length ≤ 3 := by
  have := descriptor_operandLength_le i
  rw [encode_length]
  exact Nat.succ_le_succ this

theorem fetchBytes_getElem (s : State) (k : Nat) (h : k < (fetchBytes s).length) :
    (fetchBytes s)[k] = s.read8 (s.pc + BitVec.ofNat 16 k) := by
  change k < 3 at h
  match k, h with
  | 0, _ => exact congrArg s.read8 (BitVec.add_zero s.pc).symm
  | 1, _ => rfl
  | 2, _ => rfl

/-! ### The step -/

theorem step_of_fetchDecode {s : State} {i : Instr} (hr : s.runState = .running) (h : fetchDecode s = some i) :
    step s = exec i (pastOpcode s) := by
  simp only [step, hr, h]

theorem step_of_illegal {s : State} (hr : s.runState = .running) (h : fetchDecode s = none) :
    step s = .next (illegalOutcome s) := by
  simp only [step, hr, h]

theorem loopStep_running {s : State} (T : Byte → Option Descriptor) (hr : s.runState = .running) :
    loopStep T s = dispatchEntry (s.read8 s.pc) (T (s.read8 s.pc)) (pastOpcode s) := by
  simp only [loopStep, hr]
  rfl

/-- Settles O43: the instruction whose bytes lie at PC is the one decoded there. -/
theorem stepRunsTheDecodedInstruction : Obligations.StepRunsTheDecodedInstruction := by
  intro s i hr _ hbytes
  have htake : (fetchBytes s).take (encode i).length = encode i := by
    refine List.ext_getElem ?_ fun k hk hk' => ?_
    · rw [List.length_take]
      exact Nat.min_eq_left (encode_length_le i)
    · rw [List.getElem_take, fetchBytes_getElem, hbytes k hk']
  have hfetch : fetchBytes s = encode i ++ (fetchBytes s).drop (encode i).length := by
    conv_lhs => rw [← List.take_append_drop (encode i).length (fetchBytes s), htake]
  exact step_of_fetchDecode hr (fetchDecode_of_bytes hfetch)

/-! ### The dispatch loop -/

/-- JSR's target, from the operand memory holds at PC, is the word that lies there after the pushes (D15). -/
theorem jsrTarget_read16 (s : State) : jsrTarget (s.read16 s.pc) s = (jsrPushed s).read16 s.pc := by
  unfold State.read16
  rw [jsrTarget, hiByte_joinBytes, loByte_joinBytes, jsrOperandByte_of_fetched, jsrOperandByte_of_fetched]

/-- An instruction whose operand bytes lie at PC does what the dispatcher does with its table entry: a meaning with an
operand byte d has the byte at PC, one with an operand word a the word at PC. -/
theorem exec_eq_dispatchEntry {i : Instr} {s : State} (opcode : Byte)
    (h : (encode i).tail = [s.read8 s.pc, s.read8 (s.pc + 1#16)].take i.form.2.operandLength) :
    exec i s = dispatchEntry opcode (some i.descriptor) s := by
  have byteOperand : ∀ {d : Byte}, [d] = [s.read8 s.pc] → d = s.read8 s.pc := List.singleton_inj.mp
  have wordOperand : ∀ {a : Word}, [loByte a, hiByte a] = [s.read8 s.pc, s.read8 (s.pc + 1#16)] →
      a = s.read16 s.pc := by
    intro a ha
    obtain ⟨hlo, hhi, -⟩ : loByte a = _ ∧ hiByte a = _ ∧ True := by simpa using ha
    exact eq_read16 hlo.symm hhi.symm
  cases i with
  | ldaImm d | ldaZp d | ldaZpX d | ldaIndX d | ldaIndY d | ldxImm d | ldxZp d | ldxZpY d | ldyImm d | ldyZp d
  | ldyZpX d | staZp d | staZpX d | staIndX d | staIndY d | adcImm d | adcZp d | adcZpX d | adcIndX d | adcIndY d
  | andImm d | andZp d | andZpX d | andIndX d | andIndY d | oraImm d | oraZp d | oraZpX d | oraIndX d | oraIndY d
  | aslZp d | aslZpX d | rolZp d | rolZpX d | incZp d | incZpX d | decZp d | decZpX d | cmpImm d | cmpZp d | cmpZpX d
  | cmpIndX d | cmpIndY d | cpxImm d | cpxZp d | cpyImm d | cpyZp d | bitZp d | bcc d | bcs d | beq d | bne d | bmi d
  | bpl d =>
    obtain rfl := byteOperand h
    rfl
  | ldaAbs a | ldaAbsX a | ldaAbsY a | ldxAbs a | ldxAbsY a | ldyAbs a | ldyAbsX a | staAbs a | staAbsX a | staAbsY a
  | adcAbs a | adcAbsX a | adcAbsY a | andAbs a | andAbsX a | andAbsY a | oraAbs a | oraAbsX a | oraAbsY a | aslAbs a
  | aslAbsX a | rolAbs a | rolAbsX a | incAbs a | incAbsX a | decAbs a | decAbsX a | cmpAbs a | cmpAbsX a | cmpAbsY a
  | cpxAbs a | cpyAbs a | bitAbs a | jmpAbs a =>
    obtain rfl := wordOperand h
    rfl
  | jsrAbs a =>
    obtain rfl := wordOperand h
    exact congrArg (fun target => Host.Outcome.next ((jsrPushed s).setPc target)) (jsrTarget_read16 s)
  | tax | txa | aslAcc | rolAcc | lsrAcc | inx | dex | sec | clc | rts | php | nop | halt => rfl

/-- The address two bytes above PC is the one above the first operand byte. -/
theorem pc_add_two (pc : Word) : pc + 2#16 = pc + 1#16 + 1#16 := (BitVec.add_assoc pc 1#16 1#16).symm

/-- Settles O44: the same byte is looked up, and the instruction decoded from the bytes at PC does what its entry's
handler does with the operand bytes it reads there. -/
theorem stepIsTheDispatchLoop : Obligations.StepIsTheDispatchLoop := by
  intro s
  cases hr : s.runState with
  | halted => simp only [step, loopStep, hr]
  | faulted r => simp only [step, loopStep, hr]
  | running =>
    rw [loopStep_running opTable hr]
    cases hi : fetchDecode s with
    | none => rw [step_of_illegal hr hi, fetchDecode_eq_none_iff.mp hi]; rfl
    | some i =>
      obtain ⟨hentry, hoperand⟩ := entry_and_operand_of_fetchDecode hi
      rw [pc_add_two] at hoperand
      rw [step_of_fetchDecode hr hi, hentry]
      exact exec_eq_dispatchEntry (s.read8 s.pc) hoperand

end Sys2Proof.Proofs
end

section
/-! PROOFS. How a core stops: Halt (47_nop_halt.md R161), an illegal opcode (30_encoding.md R57, 60_exceptions.md R171), a
malformed table row (R58, R172), and that nothing else stops it. -/

namespace Sys2Proof.Proofs

open Sys2Proof.Machine Sys2Proof.Claims

/-- Settles O42: the step's two cases for a stopped core. -/
theorem stoppedCoreHasNoStep : Obligations.StoppedCoreHasNoStep :=
  fun s => ⟨fun h => by simp only [step, h], fun r h => by simp only [step, h]⟩

/-! ### Halt -/

/-- Opcode 0x00 is fetched as Halt. -/
theorem fetchDecode_of_zero {s : State} (h : s.read8 s.pc = 0x00#8) : fetchDecode s = some .halt :=
  fetchDecode_of_bytes (rest := [s.read8 (s.pc + 1#16), s.read8 (s.pc + 2#16)]) (by rw [fetchBytes, h]; rfl)

theorem fetchDecode_eq_halt_iff {s : State} : fetchDecode s = some .halt ↔ s.read8 s.pc = 0x00#8 := by
  refine ⟨fun h => ?_, fetchDecode_of_zero⟩
  obtain ⟨rest, hbytes⟩ := fetchBytes_of_fetchDecode h
  exact (List.cons.inj hbytes).1

/-- Settles O39: the meaning of Halt, and the step that fetches it. -/
theorem haltStopsAndDoesNothingElse : Obligations.HaltStopsAndDoesNothingElse :=
  ⟨fun _ => rfl, fun _ hr h => step_of_fetchDecode hr (fetchDecode_of_zero h)⟩

/-! ### Illegal opcodes -/

/-- R57's list against R54's table, byte by byte. -/
theorem opTable_eq_none_iff : ∀ b : Byte, opTable b = none ↔ b ∈ illegalBytes := by decide +kernel

/-- Settles O40: an illegal byte has no entry, so nothing is decoded and the step ends in `illegalOutcome`. -/
theorem illegalOpcodeFaultsTheCore : Obligations.IllegalOpcodeFaultsTheCore :=
  ⟨opTable_eq_none_iff, fun _ hr h =>
    step_of_illegal hr (fetchDecode_eq_none_iff.mpr ((opTable_eq_none_iff _).mpr h))⟩

theorem mem_illegalBytes_iff {s : State} : s.read8 s.pc ∈ illegalBytes ↔ fetchDecode s = none :=
  (opTable_eq_none_iff _).symm.trans fetchDecode_eq_none_iff.symm

/-- Settles O45: both conditions on the byte at PC say what is fetched there, and Halt alone of all instructions does not
keep `run_state`. -/
theorem onlyOpcodesStopTheCore : Obligations.OnlyOpcodesStopTheCore := by
  intro s t hstep
  have hr := running_of_step hstep
  simp only [← fetchDecode_eq_halt_iff, mem_illegalBytes_iff]
  refine ⟨hr, ?_⟩
  cases hi : fetchDecode s with
  | none =>
    obtain rfl : illegalOutcome s = t := Host.Outcome.next.inj ((step_of_illegal hr hi).symm.trans hstep)
    exact ⟨by simp [illegalOutcome], fun r => by simp [illegalOutcome, eq_comm], fun _ => rfl⟩
  | some i =>
    have hexec : exec i (pastOpcode s) = .next t := (step_of_fetchDecode hr hi).symm.trans hstep
    by_cases hhalt : i = .halt
    · subst hhalt
      obtain rfl : (pastOpcode s).halt = t := Host.Outcome.next.inj hexec
      exact ⟨by simp, fun r => by simp, fun _ => rfl⟩
    · obtain ⟨t', ht', hkeeps⟩ := exec_keeps_runState i (pastOpcode s)
      obtain rfl : t' = t := Host.Outcome.next.inj (ht'.symm.trans hexec)
      have hrunning : t'.runState = .running := (hkeeps hhalt).trans hr
      exact ⟨by simp [hrunning, hhalt], fun r => by simp [hrunning], fun h => absurd hrunning h⟩

/-! ### Rows of other tables -/

theorem loopStep_of_entry {T : Byte → Option Descriptor} {s : State} {d : Descriptor} (hr : s.runState = .running)
    (hd : T (s.read8 s.pc) = some d) (hh : d.handler ≠ .halt) :
    loopStep T s = sequence d.operandLength (pastOpcode s) (runHandler d.handler d.mode (pastOpcode s)) := by
  rw [loopStep_running T hr, hd]
  exact if_neg hh

/-- Settles O38: NOP's effect is none, and the sequencer then adds the length its row declares. -/
theorem nopOnlyAdvancesPc : Obligations.NopOnlyAdvancesPc := by
  refine ⟨fun s => ?_, fun T s d hr hd hh => ?_⟩
  · change Host.Outcome.next (s.setPc (s.pc + 0#16)) = .next s
    rw [BitVec.add_zero]
    rfl
  · rw [loopStep_of_entry hr hd (by simp [hh]), hh]
    rfl

theorem resolve_of_noneAddressing {m : Mode} (s : State) (hm : m ∈ [.implied, .accumulator, .relative]) :
    resolve m s = none := by
  simp only [List.mem_cons, List.not_mem_nil, or_false] at hm
  obtain rfl | rfl | rfl := hm <;> rfl

/-- Without an accumulator form to fall back on, a shift in a mode that resolves to no address has none. -/
theorem modifyOperand_noAddress {m : Mode} (result : Byte → State → Byte) (flags : Byte → State → State) {s : State}
    (h : resolve m s = none) (hm : m ≠ .accumulator) : modifyOperand m result flags s = .noAddress := by
  cases m <;> simp_all [modifyOperand]

/-- A handler that needs a memory operand and gets no address writes nothing. -/
theorem runHandler_noAddress {h : Handler} {m : Mode} {s : State} (hneeds : needsMemoryOperand h = true)
    (hresolve : resolve m s = none) (hacc : h ∈ [.asl, .rol] → m ≠ .accumulator) : runHandler h m s = .noAddress := by
  cases h with
  | lda | ldx | ldy | adc | and | ora | cmp | cpx | cpy | bit => simp only [runHandler, readOperand, hresolve]
  | sta => simp only [runHandler, storeOperand, hresolve]
  | inc | dec => simp only [runHandler, modifyCell, hresolve]
  | asl | rol => exact modifyOperand_noAddress _ _ hresolve (hacc (by simp))
  | tax | txa | lsr | inx | dex | sec | clc | bcc | bcs | beq | bne | bmi | bpl | jmp | jsr | rts | php | nop | halt =>
    cases hneeds

/-- Settles O41: the resolver has no address to give, so the handler stops before its first write. -/
theorem malformedRowRaisesInvalidAddressingMode : Obligations.MalformedRowRaisesInvalidAddressingMode := by
  intro T s d hr hd hneeds hmode hacc
  have hhalt : d.handler ≠ .halt := by
    intro h
    rw [h] at hneeds
    cases hneeds
  rw [loopStep_of_entry hr hd hhalt,
    runHandler_noAddress hneeds (resolve_of_noneAddressing (pastOpcode s) hmode) hacc]
  rfl

end Sys2Proof.Proofs
end

section
/-! PROOFS. Rules for the statements about one instruction: what each state operation does to the frame `Leaves`, and when
an instruction of a shared shape `Reads` its operand or `WorksAt` its cell. -/

namespace Sys2Proof.Proofs

open Sys2Proof.Machine Sys2Proof.Claims

/-! ### One rule per state operation -/

section

variable {s t : State} {a x y sp : Byte} {pc : Word} {flags : List Flag} {cells : List Word}

theorem leaves_refl (s : State) : Leaves s s s.a s.x s.y s.sp s.pc flags cells :=
  ⟨rfl, rfl, rfl, rfl, rfl, rfl, fun _ _ => rfl, fun _ _ => rfl⟩

theorem leaves_then_setA (h : Leaves s t a x y sp pc flags cells) (v : Byte) :
    Leaves s (t.setReg .a v) v x y sp pc flags cells := by
  obtain ⟨-, hx, hy, hsp, hpc, hrun, hflags, hcells⟩ := h
  exact ⟨rfl, hx, hy, hsp, hpc, hrun, hflags, hcells⟩

theorem leaves_then_setX (h : Leaves s t a x y sp pc flags cells) (v : Byte) :
    Leaves s (t.setReg .x v) a v y sp pc flags cells := by
  obtain ⟨ha, -, hy, hsp, hpc, hrun, hflags, hcells⟩ := h
  exact ⟨ha, rfl, hy, hsp, hpc, hrun, hflags, hcells⟩

theorem leaves_then_setY (h : Leaves s t a x y sp pc flags cells) (v : Byte) :
    Leaves s (t.setReg .y v) a x v sp pc flags cells := by
  obtain ⟨ha, hx, -, hsp, hpc, hrun, hflags, hcells⟩ := h
  exact ⟨ha, hx, rfl, hsp, hpc, hrun, hflags, hcells⟩

theorem leaves_then_setSp (h : Leaves s t a x y sp pc flags cells) (v : Byte) :
    Leaves s (t.setSp v) a x y v pc flags cells := by
  obtain ⟨ha, hx, hy, -, hpc, hrun, hflags, hcells⟩ := h
  exact ⟨ha, hx, hy, rfl, hpc, hrun, hflags, hcells⟩

theorem leaves_then_setPc (h : Leaves s t a x y sp pc flags cells) (w : Word) :
    Leaves s (t.setPc w) a x y sp w flags cells := by
  obtain ⟨ha, hx, hy, hsp, -, hrun, hflags, hcells⟩ := h
  exact ⟨ha, hx, hy, hsp, rfl, hrun, hflags, hcells⟩

theorem leaves_then_setFlag (h : Leaves s t a x y sp pc flags cells) (f : Flag) (b : Bool)
    (hf : f ∈ flags := by decide) : Leaves s (t.setFlag f b) a x y sp pc flags cells := by
  obtain ⟨ha, hx, hy, hsp, hpc, hrun, hflags, hcells⟩ := h
  refine ⟨ha, hx, hy, hsp, hpc, hrun, fun g hg => ?_, hcells⟩
  rw [flag_setFlag_other t b (ne_of_mem_of_not_mem hf hg).symm, hflags g hg]

theorem leaves_then_setZN (h : Leaves s t a x y sp pc flags cells) (v : Byte)
    (hz : Flag.z ∈ flags := by decide) (hn : Flag.n ∈ flags := by decide) :
    Leaves s (t.setZN v) a x y sp pc flags cells :=
  leaves_then_setFlag (leaves_then_setFlag h .z (v == 0#8) hz) .n (highBit v) hn

theorem leaves_then_write8 (h : Leaves s t a x y sp pc flags cells) (addr : Word) (v : Byte) (haddr : addr ∈ cells) :
    Leaves s (t.write8 addr v) a x y sp pc flags cells := by
  obtain ⟨ha, hx, hy, hsp, hpc, hrun, hflags, hcells⟩ := h
  refine ⟨ha, hx, hy, hsp, hpc, hrun, hflags, fun q hq => ?_⟩
  rw [read8_write8_other t v (ne_of_mem_of_not_mem haddr hq).symm, hcells q hq]

theorem leaves_then_push8 (h : Leaves s t a x y sp pc flags cells) (v : Byte) (hcell : stackAddr sp ∈ cells) :
    Leaves s (t.push8 v) a x y (sp - 1#8) pc flags cells := by
  obtain rfl : t.sp = sp := by
    obtain ⟨-, -, -, hsp, -⟩ := h
    exact hsp
  exact leaves_then_setSp (leaves_then_write8 h (stackAddr t.sp) v hcell) (t.sp - 1#8)

end

/-! ### Instructions of a shared shape -/

theorem reads_of_readForm {i : Instr} {m : AddrMode} {len : Word} {s : State} {post : Byte → State → Word → Prop}
    {f : Byte → State → State} {v : Byte} (hpost : ∀ v pc, post v ((f v s).setPc pc) pc)
    (hexec : exec i s = readForm m f s) (hv : operandByte m s = some v)
    (hlen : BitVec.ofNat 16 (addrModeLength m) = len) : Reads i m len s post := by
  subst hlen
  exact ⟨v, _, hv, hexec.trans (readForm_next f hv), hpost v _⟩

theorem worksAt_of_storeForm {i : Instr} {m : AddrMode} {len : Word} {s : State} {post : Word → State → Word → Prop}
    {value : State → Byte} {addr : Word} (hpost : ∀ addr pc, post addr ((s.write8 addr (value s)).setPc pc) pc)
    (hexec : exec i s = storeForm m value s) (haddr : ea m s = some addr)
    (hlen : BitVec.ofNat 16 (addrModeLength m) = len) : WorksAt i m len s post := by
  subst hlen
  exact ⟨addr, _, haddr, hexec.trans (storeForm_next value haddr), hpost addr _⟩

theorem worksAt_of_modifyForm {i : Instr} {m : AddrMode} {len : Word} {s : State} {post : Word → State → Word → Prop}
    {result : Byte → State → Byte} {flags : Byte → State → State} {addr : Word}
    (hpost : ∀ addr pc,
      post addr (((flags (s.read8 addr) s).write8 addr (result (s.read8 addr) s)).setPc pc) pc)
    (hexec : exec i s = modifyForm m result flags s) (haddr : ea m s = some addr)
    (hlen : BitVec.ofNat 16 (addrModeLength m) = len) : WorksAt i m len s post := by
  subst hlen
  exact ⟨addr, _, haddr, hexec.trans (modifyForm_next result flags haddr), hpost addr _⟩

/-- An instruction without operand bytes leaves PC where it was. -/
theorem impliedForm_eq (effect : State → State) (s : State) : impliedForm effect s = .next ((effect s).setPc s.pc) := by
  rw [impliedForm_next, BitVec.add_zero]

theorem accumulatorForm_eq (result : Byte → State → Byte) (flags : Byte → State → State) (s : State) :
    accumulatorForm result flags s = .next (((flags s.a s).setReg .a (result s.a s)).setPc s.pc) := by
  rw [accumulatorForm_next, BitVec.add_zero]

end Sys2Proof.Proofs
end

section
/-! PROOFS. Load, store and transfer (41_load_store_transfer.md). -/

namespace Sys2Proof.Proofs

open Sys2Proof.Machine Sys2Proof.Claims

theorem loadA_leaves (v : Byte) (s : State) : Leaves s (loadReg .a v s) v s.x s.y s.sp s.pc [.z, .n] [] :=
  leaves_then_setZN (leaves_then_setA (leaves_refl s) v) v

theorem loadX_leaves (v : Byte) (s : State) : Leaves s (loadReg .x v s) s.a v s.y s.sp s.pc [.z, .n] [] :=
  leaves_then_setZN (leaves_then_setX (leaves_refl s) v) v

theorem loadY_leaves (v : Byte) (s : State) : Leaves s (loadReg .y v s) s.a s.x v s.sp s.pc [.z, .n] [] :=
  leaves_then_setZN (leaves_then_setY (leaves_refl s) v) v

/-- Settles O15: in every mode LDA is the reading shape over `loadReg .a`. -/
theorem ldaLoadsTheOperand : Obligations.LdaLoadsTheOperand := by
  intro s d a loads
  have post : ∀ v pc, loads v ((loadReg .a v s).setPc pc) pc := fun v pc =>
    ⟨leaves_then_setPc (loadA_leaves v s) pc, showsZN_setZN _ v⟩
  exact ⟨reads_of_readForm post rfl rfl rfl, reads_of_readForm post rfl rfl rfl, reads_of_readForm post rfl rfl rfl,
    reads_of_readForm post rfl rfl rfl, reads_of_readForm post rfl rfl rfl, reads_of_readForm post rfl rfl rfl,
    reads_of_readForm post rfl rfl rfl, reads_of_readForm post rfl rfl rfl⟩

/-- Settles O16: in every mode LDX is the reading shape over `loadReg .x`. -/
theorem ldxLoadsTheOperand : Obligations.LdxLoadsTheOperand := by
  intro s d a loads
  have post : ∀ v pc, loads v ((loadReg .x v s).setPc pc) pc := fun v pc =>
    ⟨leaves_then_setPc (loadX_leaves v s) pc, showsZN_setZN _ v⟩
  exact ⟨reads_of_readForm post rfl rfl rfl, reads_of_readForm post rfl rfl rfl, reads_of_readForm post rfl rfl rfl,
    reads_of_readForm post rfl rfl rfl, reads_of_readForm post rfl rfl rfl⟩

/-- Settles O17: in every mode LDY is the reading shape over `loadReg .y`. -/
theorem ldyLoadsTheOperand : Obligations.LdyLoadsTheOperand := by
  intro s d a loads
  have post : ∀ v pc, loads v ((loadReg .y v s).setPc pc) pc := fun v pc =>
    ⟨leaves_then_setPc (loadY_leaves v s) pc, showsZN_setZN _ v⟩
  exact ⟨reads_of_readForm post rfl rfl rfl, reads_of_readForm post rfl rfl rfl, reads_of_readForm post rfl rfl rfl,
    reads_of_readForm post rfl rfl rfl, reads_of_readForm post rfl rfl rfl⟩

theorem write8_leaves (s : State) (addr : Word) (v : Byte) :
    Leaves s (s.write8 addr v) s.a s.x s.y s.sp s.pc [] [addr] :=
  leaves_then_write8 (leaves_refl s) addr v (List.mem_singleton_self addr)

/-- Settles O18: in every mode STA is the storing shape over A. -/
theorem staStoresTheAccumulator : Obligations.StaStoresTheAccumulator := by
  intro s d a stores
  have post : ∀ addr pc, stores addr ((s.write8 addr s.a).setPc pc) pc := fun addr pc =>
    ⟨leaves_then_setPc (write8_leaves s addr s.a) pc, read8_write8_same s addr s.a⟩
  exact ⟨worksAt_of_storeForm post rfl rfl rfl, worksAt_of_storeForm post rfl rfl rfl,
    worksAt_of_storeForm post rfl rfl rfl, worksAt_of_storeForm post rfl rfl rfl, worksAt_of_storeForm post rfl rfl rfl,
    worksAt_of_storeForm post rfl rfl rfl, worksAt_of_storeForm post rfl rfl rfl⟩

theorem transferAX_leaves (s : State) : Leaves s (transferReg .a .x s) s.a s.a s.y s.sp s.pc [.z, .n] [] :=
  leaves_then_setZN (leaves_then_setX (leaves_refl s) s.a) s.a

theorem transferXA_leaves (s : State) : Leaves s (transferReg .x .a s) s.x s.x s.y s.sp s.pc [.z, .n] [] :=
  leaves_then_setZN (leaves_then_setA (leaves_refl s) s.x) s.x

/-- Settles O19: both transfers are implied, with the shared rule on the byte copied. -/
theorem transfersCopyARegister : Obligations.TransfersCopyARegister := fun s =>
  ⟨⟨_, impliedForm_eq _ s, leaves_then_setPc (transferAX_leaves s) s.pc, showsZN_setZN _ s.a⟩,
    ⟨_, impliedForm_eq _ s, leaves_then_setPc (transferXA_leaves s) s.pc, showsZN_setZN _ s.x⟩⟩

end Sys2Proof.Proofs
end

section
/-! PROOFS. Arithmetic and logic (42_arithmetic_logic.md). -/

namespace Sys2Proof.Proofs

open Sys2Proof.Machine Sys2Proof.Claims

theorem ofNat_mod_256 (n : Nat) : BitVec.ofNat 8 (n % 256) = BitVec.ofNat 8 n :=
  BitVec.eq_of_toNat_eq (Nat.mod_mod n 256)

/-! ### ADC -/

/-- Masking with 0x80 leaves bit 7 alone. -/
theorem and_0x80_ne_zero (v : Byte) : ((v &&& 0x80#8) != 0#8) = v.getLsbD 7 := by
  revert v
  decide

/-- Signed overflow: the two addends agree in bit 7 and the result does not (R110). -/
theorem adcOverflow_eq (a v result : Byte) :
    adcOverflow a v result = (a.getLsbD 7 == v.getLsbD 7 && result.getLsbD 7 != a.getLsbD 7) := by
  rw [adcOverflow, and_0x80_ne_zero, BitVec.getLsbD_and, BitVec.getLsbD_xor, BitVec.getLsbD_xor]
  cases a.getLsbD 7 <;> cases v.getLsbD 7 <;> cases result.getLsbD 7 <;> rfl

theorem addToA_leaves (v : Byte) (s : State) :
    Leaves s (addToA v s) (adcResult s.a v (s.flag .c)) s.x s.y s.sp s.pc [.c, .z, .v, .n] [] :=
  leaves_then_setZN (leaves_then_setA (leaves_then_setFlag (leaves_then_setFlag (leaves_refl s) .c _) .v _) _) _

theorem addToA_flag_c (v : Byte) (s : State) : (addToA v s).flag .c = adcCarry s.a v (s.flag .c) := by
  simp [addToA, flag_setZN_other, flag_setFlag_other]

theorem addToA_flag_v (v : Byte) (s : State) :
    (addToA v s).flag .v = adcOverflow s.a v (adcResult s.a v (s.flag .c)) := by
  simp [addToA, flag_setZN_other]

/-- Settles O20: in every mode ADC is the reading shape over `addToA`, whose result, Carry and Overflow are the model's
ADC formulas. -/
theorem adcAddsWithCarry : Obligations.AdcAddsWithCarry := by
  intro s d a adds
  have post : ∀ v pc, adds v ((addToA v s).setPc pc) pc := by
    intro v pc
    have hresult : BitVec.ofNat 8 ((s.a.toNat + v.toNat + (if s.flag .c then 1 else 0)) % 256) =
        adcResult s.a v (s.flag .c) := ofNat_mod_256 _
    refine ⟨?_, ?_, addToA_flag_c v s, (addToA_flag_v v s).trans (adcOverflow_eq s.a v _)⟩
    · rw [hresult]
      exact leaves_then_setPc (addToA_leaves v s) pc
    · rw [hresult]
      exact showsZN_setZN _ (adcResult s.a v (s.flag .c))
  exact ⟨reads_of_readForm post rfl rfl rfl, reads_of_readForm post rfl rfl rfl, reads_of_readForm post rfl rfl rfl,
    reads_of_readForm post rfl rfl rfl, reads_of_readForm post rfl rfl rfl, reads_of_readForm post rfl rfl rfl,
    reads_of_readForm post rfl rfl rfl, reads_of_readForm post rfl rfl rfl⟩

/-! ### AND, ORA -/

theorem andToA_leaves (v : Byte) (s : State) :
    Leaves s (andToA v s) (s.a &&& v) s.x s.y s.sp s.pc [.z, .n] [] :=
  leaves_then_setZN (leaves_then_setFlag (leaves_then_setA (leaves_refl s) (s.a &&& v)) .z _) _

theorem orToA_leaves (v : Byte) (s : State) :
    Leaves s (orToA v s) (s.a ||| v) s.x s.y s.sp s.pc [.z, .n] [] :=
  leaves_then_setZN (leaves_then_setA (leaves_refl s) (s.a ||| v)) _

/-- Settles O21: the shared rule comes last and overwrites the inline write of Zero. -/
theorem andCombinesWithA : Obligations.AndCombinesWithA := by
  intro s d a ands
  have post : ∀ v pc, ands v ((andToA v s).setPc pc) pc := fun v pc =>
    ⟨leaves_then_setPc (andToA_leaves v s) pc, showsZN_setZN _ (s.a &&& v)⟩
  exact ⟨reads_of_readForm post rfl rfl rfl, reads_of_readForm post rfl rfl rfl, reads_of_readForm post rfl rfl rfl,
    reads_of_readForm post rfl rfl rfl, reads_of_readForm post rfl rfl rfl, reads_of_readForm post rfl rfl rfl,
    reads_of_readForm post rfl rfl rfl, reads_of_readForm post rfl rfl rfl⟩

/-- Settles O22: in every mode ORA is the reading shape over `orToA`. -/
theorem oraCombinesWithA : Obligations.OraCombinesWithA := by
  intro s d a ors
  have post : ∀ v pc, ors v ((orToA v s).setPc pc) pc := fun v pc =>
    ⟨leaves_then_setPc (orToA_leaves v s) pc, showsZN_setZN _ (s.a ||| v)⟩
  exact ⟨reads_of_readForm post rfl rfl rfl, reads_of_readForm post rfl rfl rfl, reads_of_readForm post rfl rfl rfl,
    reads_of_readForm post rfl rfl rfl, reads_of_readForm post rfl rfl rfl, reads_of_readForm post rfl rfl rfl,
    reads_of_readForm post rfl rfl rfl, reads_of_readForm post rfl rfl rfl⟩

end Sys2Proof.Proofs
end

section
/-! PROOFS. Shift and rotate (43_shift_rotate.md). -/

namespace Sys2Proof.Proofs

open Sys2Proof.Machine Sys2Proof.Claims

/-! ### The bytes written back, as numbers -/

theorem aslResult_eq_ofNat (v : Byte) : aslResult v = BitVec.ofNat 8 (v.toNat * 2 % 256) := by
  apply BitVec.eq_of_toNat_eq
  simp only [aslResult, BitVec.toNat_shiftLeft, BitVec.toNat_ofNat, Nat.shiftLeft_eq]
  omega

/-- The bit that comes in from Carry is bit 0 of an even number, so taking it in adds it. -/
theorem rolResult_eq_ofNat (v : Byte) (carry : Bool) :
    rolResult v carry = BitVec.ofNat 8 ((v.toNat * 2 + (if carry then 1 else 0)) % 256) := by
  revert v carry
  decide

theorem lsrResult_eq_ofNat (v : Byte) : lsrResult v = BitVec.ofNat 8 (v.toNat / 2) := by
  have := v.isLt
  apply BitVec.eq_of_toNat_eq
  simp only [lsrResult, BitVec.toNat_udiv, BitVec.toNat_ofNat, Nat.reducePow, Nat.reduceMod]
  omega

/-- Half a byte is below 128. -/
theorem highBit_lsrResult (v : Byte) : highBit (lsrResult v) = false := by
  revert v
  decide

/-! ### Their flags -/

theorem aslFlags_leaves (v : Byte) (s : State) (cells : List Word) :
    Leaves s (aslFlags v s) s.a s.x s.y s.sp s.pc [.c, .z, .n] cells :=
  leaves_then_setZN (leaves_then_setFlag (leaves_refl s) .c _) _

theorem rolFlags_leaves (v : Byte) (s : State) (cells : List Word) :
    Leaves s (rolFlags v s) s.a s.x s.y s.sp s.pc [.c, .z, .n] cells :=
  leaves_then_setZN (leaves_then_setFlag (leaves_refl s) .c _) _

theorem lsrFlags_leaves (v : Byte) (s : State) :
    Leaves s (lsrFlags v s) s.a s.x s.y s.sp s.pc [.c, .z, .n] [] :=
  leaves_then_setZN (leaves_then_setFlag (leaves_refl s) .c _) _

theorem aslFlags_flag_c (v : Byte) (s : State) : (aslFlags v s).flag .c = v.getLsbD 7 := by
  simp [aslFlags, flag_setZN_other, highBit]

theorem rolFlags_flag_c (v : Byte) (s : State) : (rolFlags v s).flag .c = v.getLsbD 7 := by
  simp [rolFlags, flag_setZN_other, highBit]

theorem lsrFlags_flag_c (v : Byte) (s : State) : (lsrFlags v s).flag .c = v.getLsbD 7 := by
  simp [lsrFlags, Config.lsrUpdatesZN, flag_setZN_other, highBit]

/-- A read-modify-write meaning: the frame its flags leave, and the one cell it writes. -/
theorem modify_leaves {s t : State} {flags : List Flag} (addr pc : Word) (v : Byte)
    (h : Leaves s t s.a s.x s.y s.sp s.pc flags [addr]) :
    Leaves s ((t.write8 addr v).setPc pc) s.a s.x s.y s.sp pc flags [addr] :=
  leaves_then_setPc (leaves_then_write8 h addr v (List.mem_singleton_self addr)) pc

/-! ### ASL, ROL, LSR -/

/-- Settles O23: the accumulator form and the modifying shape over the same result and flags. -/
theorem aslShiftsLeft : Obligations.AslShiftsLeft := by
  intro s d a shifted flags cell
  have hshifted : ∀ v, aslResult v = shifted v := aslResult_eq_ofNat
  have hflags : ∀ v, flags (aslFlags v s) v := by
    intro v
    refine ⟨aslFlags_flag_c v s, ?_⟩
    rw [← hshifted]
    exact showsZN_setZN _ _
  have post : ∀ addr pc,
      cell addr (((aslFlags (s.read8 addr) s).write8 addr (aslByte (s.read8 addr) s)).setPc pc) pc := fun addr pc =>
    ⟨modify_leaves addr pc _ (aslFlags_leaves (s.read8 addr) s [addr]),
      (read8_write8_same _ addr _).trans (hshifted _), hflags (s.read8 addr)⟩
  have hacc : Leaves s (((aslFlags s.a s).setReg .a (aslByte s.a s)).setPc s.pc) (shifted s.a) s.x s.y s.sp s.pc
      [.c, .z, .n] [] := by
    rw [← hshifted]
    exact leaves_then_setPc (leaves_then_setA (aslFlags_leaves s.a s []) _) s.pc
  exact ⟨⟨_, accumulatorForm_eq aslByte aslFlags s, hacc, hflags s.a⟩, worksAt_of_modifyForm post rfl rfl rfl,
    worksAt_of_modifyForm post rfl rfl rfl, worksAt_of_modifyForm post rfl rfl rfl,
    worksAt_of_modifyForm post rfl rfl rfl⟩

/-- Settles O24: as for ASL, with the shared rule on the old byte, whose bit 7 is also the new Carry. -/
theorem rolRotatesLeftWithFlagsOfTheOldValue : Obligations.RolRotatesLeftWithFlagsOfTheOldValue := by
  intro s d a rotated flags cell
  have hrotated : ∀ v, rolByte v s = rotated v := fun v => rolResult_eq_ofNat v (s.flag .c)
  have hflags : ∀ v, flags (rolFlags v s) v := fun v =>
    ⟨rolFlags_flag_c v s, showsZN_setZN _ v, (flag_setZN_n _ v).trans (rolFlags_flag_c v s).symm⟩
  have post : ∀ addr pc,
      cell addr (((rolFlags (s.read8 addr) s).write8 addr (rolByte (s.read8 addr) s)).setPc pc) pc := fun addr pc =>
    ⟨modify_leaves addr pc _ (rolFlags_leaves (s.read8 addr) s [addr]),
      (read8_write8_same _ addr _).trans (hrotated _), hflags (s.read8 addr)⟩
  have hacc : Leaves s (((rolFlags s.a s).setReg .a (rolByte s.a s)).setPc s.pc) (rotated s.a) s.x s.y s.sp s.pc
      [.c, .z, .n] [] := by
    rw [← hrotated]
    exact leaves_then_setPc (leaves_then_setA (rolFlags_leaves s.a s []) _) s.pc
  exact ⟨⟨_, accumulatorForm_eq rolByte rolFlags s, hacc, hflags s.a⟩, worksAt_of_modifyForm post rfl rfl rfl,
    worksAt_of_modifyForm post rfl rfl rfl, worksAt_of_modifyForm post rfl rfl rfl,
    worksAt_of_modifyForm post rfl rfl rfl⟩

/-- Settles O25: the accumulator form over LSR's result and flags, the shared rule applied (D8). -/
theorem lsrHalvesWithCarryFromBitSeven : Obligations.LsrHalvesWithCarryFromBitSeven := by
  intro s
  rw [← lsrResult_eq_ofNat]
  have hzn : ShowsZN (lsrFlags s.a s) (lsrResult s.a) := showsZN_setZN _ _
  exact ⟨_, accumulatorForm_eq lsrByte lsrFlags s,
    leaves_then_setPc (leaves_then_setA (lsrFlags_leaves s.a s) _) s.pc, lsrFlags_flag_c s.a s, hzn,
    hzn.2.trans (highBit_lsrResult s.a)⟩

end Sys2Proof.Proofs
end

section
/-! PROOFS. Increment, decrement, compare and bit test (44_incdec_compare_bit.md). -/

namespace Sys2Proof.Proofs

open Sys2Proof.Machine Sys2Proof.Claims

/-! ### Increment and decrement -/

theorem add_one_eq_ofNat (v : Byte) : v + 1#8 = BitVec.ofNat 8 ((v.toNat + 1) % 256) :=
  BitVec.eq_of_toNat_eq (Nat.mod_mod _ 256).symm

/-- Mod 256, one less is 255 more. -/
theorem sub_one_eq_ofNat (v : Byte) : v - 1#8 = BitVec.ofNat 8 ((v.toNat + 255) % 256) := by
  apply BitVec.eq_of_toNat_eq
  simp only [BitVec.toNat_sub, BitVec.toNat_ofNat]
  omega

theorem incX_leaves (s : State) : Leaves s (incX s) s.a (s.x + 1#8) s.y s.sp s.pc [.z, .n] [] :=
  leaves_then_setZN (leaves_then_setX (leaves_refl s) _) _

theorem decX_leaves (s : State) : Leaves s (decX s) s.a (s.x - 1#8) s.y s.sp s.pc [.z, .n] [] :=
  leaves_then_setZN (leaves_then_setX (leaves_refl s) _) _

/-- Settles O26: both are implied, with the shared rule on the new X. -/
theorem inxAndDexStepX : Obligations.InxAndDexStepX := by
  intro s
  rw [← add_one_eq_ofNat, ← sub_one_eq_ofNat]
  exact ⟨⟨_, impliedForm_eq incX s, leaves_then_setPc (incX_leaves s) s.pc, showsZN_setZN _ _⟩,
    ⟨_, impliedForm_eq decX s, leaves_then_setPc (decX_leaves s) s.pc, showsZN_setZN _ _⟩⟩

theorem incFlags_leaves (v : Byte) (s : State) (cells : List Word) :
    Leaves s (incFlags v s) s.a s.x s.y s.sp s.pc [.z, .n] cells :=
  leaves_then_setZN (leaves_refl s) _

theorem decFlags_leaves (v : Byte) (s : State) (cells : List Word) :
    Leaves s (decFlags v s) s.a s.x s.y s.sp s.pc [.z, .n] cells :=
  leaves_then_setZN (leaves_refl s) _

/-- Settles O27: in every mode INC and DEC are the modifying shape, each over its own byte and flags. -/
theorem incAndDecStepACell : Obligations.IncAndDecStepACell := by
  intro s d a steps
  have inc : ∀ addr pc,
      steps 1 addr (((incFlags (s.read8 addr) s).write8 addr (incByte (s.read8 addr) s)).setPc pc) pc := by
    intro addr pc
    refine ⟨modify_leaves addr pc _ (incFlags_leaves (s.read8 addr) s [addr]), ?_⟩
    rw [← add_one_eq_ofNat]
    exact ⟨read8_write8_same _ addr _, showsZN_setZN _ _⟩
  have dec : ∀ addr pc,
      steps 255 addr (((decFlags (s.read8 addr) s).write8 addr (decByte (s.read8 addr) s)).setPc pc) pc := by
    intro addr pc
    refine ⟨modify_leaves addr pc _ (decFlags_leaves (s.read8 addr) s [addr]), ?_⟩
    rw [← sub_one_eq_ofNat]
    exact ⟨read8_write8_same _ addr _, showsZN_setZN _ _⟩
  exact ⟨worksAt_of_modifyForm inc rfl rfl rfl, worksAt_of_modifyForm inc rfl rfl rfl,
    worksAt_of_modifyForm inc rfl rfl rfl, worksAt_of_modifyForm inc rfl rfl rfl,
    worksAt_of_modifyForm dec rfl rfl rfl, worksAt_of_modifyForm dec rfl rfl rfl,
    worksAt_of_modifyForm dec rfl rfl rfl, worksAt_of_modifyForm dec rfl rfl rfl⟩

/-! ### Compare -/

theorem compareReg_leaves (r : Reg) (v : Byte) (s : State) :
    Leaves s (compareReg r v s) s.a s.x s.y s.sp s.pc [.c, .z, .n] [] :=
  leaves_then_setZN (leaves_then_setFlag (leaves_refl s) .c _) _

theorem compareReg_flag_c (r : Reg) (v : Byte) (s : State) :
    (compareReg r v s).flag .c = decide (v.toNat ≤ (s.reg r).toNat) := by
  simp [compareReg, flag_setZN_other, compareCarry, BitVec.le_def]

/-- The register minus one is zero exactly when the register is one. -/
theorem compareReg_flag_z (r : Reg) (v : Byte) (s : State) :
    (compareReg r v s).flag .z = decide (s.reg r = 0x01#8) := by
  rw [compareReg, flag_setZN_z, Bool.eq_iff_iff, beq_iff_eq, decide_eq_true_iff, BitVec.sub_eq_iff_eq_add,
    BitVec.zero_add]

/-- The register minus one wraps to 0xFF at zero, and is otherwise 128 or more when the register is above 128. -/
theorem highBit_sub_one (v : Byte) : highBit (v - 1#8) = decide (v.toNat = 0 ∨ v.toNat > 128) := by
  revert v
  decide

theorem compareReg_flag_n (r : Reg) (v : Byte) (s : State) :
    (compareReg r v s).flag .n = decide ((s.reg r).toNat = 0 ∨ (s.reg r).toNat > 128) := by
  rw [compareReg, flag_setZN_n, highBit_sub_one]

/-- Settles O28: in every mode the three compares are the reading shape over `compareReg` of their register. -/
theorem onlyTheCarryOfACompareDependsOnTheOperand : Obligations.OnlyTheCarryOfACompareDependsOnTheOperand := by
  intro s d a compares
  have post : ∀ r v pc, compares (s.reg r) v ((compareReg r v s).setPc pc) pc := fun r v pc =>
    ⟨leaves_then_setPc (compareReg_leaves r v s) pc, compareReg_flag_c r v s, compareReg_flag_z r v s,
      compareReg_flag_n r v s⟩
  have cmp := post .a
  have cpx := post .x
  have cpy := post .y
  exact ⟨reads_of_readForm cmp rfl rfl rfl, reads_of_readForm cmp rfl rfl rfl, reads_of_readForm cmp rfl rfl rfl,
    reads_of_readForm cmp rfl rfl rfl, reads_of_readForm cmp rfl rfl rfl, reads_of_readForm cmp rfl rfl rfl,
    reads_of_readForm cmp rfl rfl rfl, reads_of_readForm cmp rfl rfl rfl, reads_of_readForm cpx rfl rfl rfl,
    reads_of_readForm cpx rfl rfl rfl, reads_of_readForm cpx rfl rfl rfl, reads_of_readForm cpy rfl rfl rfl,
    reads_of_readForm cpy rfl rfl rfl, reads_of_readForm cpy rfl rfl rfl⟩

/-! ### BIT -/

theorem bitTest_leaves (v : Byte) (s : State) :
    Leaves s (bitTest v s) s.a s.x s.y s.sp s.pc [.z, .v, .n] [] :=
  leaves_then_setFlag (leaves_then_setFlag (leaves_then_setFlag (leaves_refl s) .z _) .v _) .n _

theorem bitTest_flag_z (v : Byte) (s : State) : (bitTest v s).flag .z = ((s.a &&& v) != 0#8) := by
  simp [bitTest, flag_setFlag_other]

theorem bitTest_flag_v (v : Byte) (s : State) : (bitTest v s).flag .v = v.getLsbD 6 := by
  simp [bitTest, flag_setFlag_other]

theorem bitTest_flag_n (v : Byte) (s : State) : (bitTest v s).flag .n = v.getLsbD 7 := by
  simp [bitTest]

/-- A masked byte is not zero exactly when the two bytes share a bit. -/
theorem and_ne_zero_iff_shared_bit (u v : Byte) :
    ((u &&& v) != 0#8) = true ↔ ∃ k, k < 8 ∧ u.getLsbD k = true ∧ v.getLsbD k = true := by
  rw [bne_iff_ne]
  constructor
  · intro h
    by_contra hnone
    push Not at hnone
    refine h (BitVec.eq_of_getLsbD_eq fun k hk => ?_)
    rw [BitVec.getLsbD_and, BitVec.getLsbD_zero, Bool.and_eq_false_iff]
    exact or_iff_not_imp_left.mpr fun hu => Bool.eq_false_iff.mpr (hnone k hk (Bool.eq_true_of_not_eq_false hu))
  · rintro ⟨k, -, hu, hv⟩ hzero
    have hbit : (u &&& v).getLsbD k = true := by rw [BitVec.getLsbD_and, hu, hv]; rfl
    rw [hzero, BitVec.getLsbD_zero] at hbit
    cases hbit

/-- Settles O29: in both modes BIT is the reading shape over `bitTest`. -/
theorem bitSetsZeroWhenABitIsShared : Obligations.BitSetsZeroWhenABitIsShared := by
  intro s d a tests
  have post : ∀ v pc, tests v ((bitTest v s).setPc pc) pc := fun v pc =>
    ⟨leaves_then_setPc (bitTest_leaves v s) pc,
      (Bool.eq_iff_iff.mp (bitTest_flag_z v s)).trans (and_ne_zero_iff_shared_bit s.a v),
      bitTest_flag_v v s, bitTest_flag_n v s⟩
  exact ⟨reads_of_readForm post rfl rfl rfl, reads_of_readForm post rfl rfl rfl⟩

end Sys2Proof.Proofs
end

section
/-! PROOFS. Flag set and clear, and the branches (45_flags_branch.md). -/

namespace Sys2Proof.Proofs

open Sys2Proof.Machine Sys2Proof.Claims

theorem putCarry_leaves (value : Bool) (s : State) :
    Leaves s (putCarry value s) s.a s.x s.y s.sp s.pc [.c] [] :=
  leaves_then_setFlag (leaves_refl s) .c value

/-- Settles O30: both are implied, over `putCarry`. -/
theorem secAndClcWriteCarry : Obligations.SecAndClcWriteCarry := fun s =>
  ⟨⟨_, impliedForm_eq _ s, leaves_then_setPc (putCarry_leaves true s) s.pc, flag_setFlag_same s .c true⟩,
    ⟨_, impliedForm_eq _ s, leaves_then_setPc (putCarry_leaves false s) s.pc, flag_setFlag_same s .c false⟩⟩

theorem add_one_eq_ofInt (pc : Word) : pc + 1#16 = BitVec.ofInt 16 ((pc.toNat : Int) + 1) := by
  rw [BitVec.ofInt_add, BitVec.ofInt_natCast, BitVec.ofNat_toNat, BitVec.setWidth_eq]
  rfl

/-- The branch target over the integers: a signed offset is sign-extended by its integer value (R142). -/
theorem add_one_add_sext16_eq_ofInt (pc : Word) (r : Byte) :
    pc + 1#16 + sext16 r = BitVec.ofInt 16 ((pc.toNat : Int) + 1 + r.toInt) := by
  rw [BitVec.ofInt_add, ← add_one_eq_ofInt]
  rfl

theorem branchForm_eq_ofInt (condition : State → Bool) (r : Byte) (s : State) :
    branchForm condition r s = .next (s.setPc (BitVec.ofInt 16
      (if condition s then (s.pc.toNat : Int) + 1 + r.toInt else (s.pc.toNat : Int) + 1))) := by
  rw [branchForm_next, add_one_add_sext16_eq_ofInt, add_one_eq_ofInt, apply_ite (BitVec.ofInt 16)]

/-- Settles O31: each branch is the branching shape over its own condition. -/
theorem branchesFollowOneFlag : Obligations.BranchesFollowOneFlag := fun s r =>
  ⟨branchForm_eq_ofInt carryClear r s, branchForm_eq_ofInt carrySet r s, branchForm_eq_ofInt zeroSet r s,
    branchForm_eq_ofInt zeroClear r s, branchForm_eq_ofInt negativeSet r s, branchForm_eq_ofInt negativeClear r s⟩

end Sys2Proof.Proofs
end

section
/-! PROOFS. Words in memory (20_memory.md R33, R34), the stack primitives (40_dispatch_and_addressing.md R86 to R90), and
the jumps and stack instructions (46_jump_subroutine_stack.md). -/

namespace Sys2Proof.Proofs

open Sys2Proof.Machine Sys2Proof.Claims

/-! ### Words and the stack -/

/-- Settles O3: a word read is two byte reads joined, and the model's read-after-write law for words. -/
theorem wordAccessIsLittleEndian : Obligations.WordAccessIsLittleEndian := by
  intro s addr w
  have hhi : (s.write16 addr w).read8 (addr + 1#16) = hiByte w := by rw [read8_write16, if_pos rfl]
  have hlo : (s.write16 addr w).read8 addr = loByte w := by
    rw [read8_write16, if_neg (addr_succ_ne addr).symm, if_pos rfl]
  refine ⟨joinBytes_toNat _ _, ?_, ?_, ?_, fun q hq hq' => ?_, rfl⟩
  · exact (eq_read16 hlo hhi).symm
  · rw [hlo, loByte_toNat]
  · rw [hhi, hiByte_toNat]
  · rw [read8_write16, if_neg hq', if_neg hq]

theorem sp_sub_one_add_one (sp : Byte) : sp - 1#8 + 1#8 = sp := BitVec.sub_add_cancel sp 1#8

theorem sp_sub_two (sp : Byte) : sp - 1#8 - 1#8 = sp - 2#8 := BitVec.sub_sub sp 1#8 1#8

theorem sp_add_two (sp : Byte) : sp + 1#8 + 1#8 = sp + 2#8 := BitVec.add_assoc sp 1#8 1#8

theorem push8_leaves (s : State) (v : Byte) :
    Leaves s (s.push8 v) s.a s.x s.y (s.sp - 1#8) s.pc [] [stackAddr s.sp] :=
  leaves_then_push8 (leaves_refl s) v (List.mem_singleton_self _)

theorem read8_push8_same (s : State) (v : Byte) : (s.push8 v).read8 (stackAddr s.sp) = v := by
  rw [read8_push8, if_pos rfl]

/-- A pop undoes a push: SP is back, and the pushed byte is popped and stays in its cell. -/
theorem pop8_push8 (s : State) (v : Byte) : (s.push8 v).pop8 = (v, s.write8 (stackAddr s.sp) v) := by
  refine Prod.ext ?_ ?_
  · rw [pop8_fst, push8_sp, sp_sub_one_add_one, read8_push8_same]
  · rw [pop8_snd, push8_sp, sp_sub_one_add_one]
    rfl

/-- Settles O6: the frame of a push, the cell it writes, and that a pop undoes it. -/
theorem pushAndPopOneByte : Obligations.PushAndPopOneByte := fun s v =>
  ⟨push8_leaves s v, read8_push8_same s v, rfl, leaves_then_setSp (leaves_refl s) (s.sp + 1#8), pop8_push8 s v⟩

theorem read8_push16_hi (s : State) (w : Word) : (s.push16 w).read8 (stackAddr s.sp) = hiByte w := by
  rw [read8_push16, if_neg (stackAddr_pred_ne s.sp).symm, if_pos rfl]

theorem read8_push16_lo (s : State) (w : Word) : (s.push16 w).read8 (stackAddr (s.sp - 1#8)) = loByte w := by
  rw [read8_push16, if_pos rfl]

/-- SP after two pushes, raised once and twice, designates the two cells pushed to. -/
theorem stackCells_above (sp : Byte) : sp - 1#8 - 1#8 + 1#8 = sp - 1#8 ∧ sp - 1#8 - 1#8 + 1#8 + 1#8 = sp :=
  ⟨sp_sub_one_add_one _, by rw [sp_sub_one_add_one, sp_sub_one_add_one]⟩

theorem pop16_push16 (s : State) (w : Word) : (s.push16 w).pop16.1 = w := by
  obtain ⟨hlo, hhi⟩ := stackCells_above s.sp
  rw [pop16_fst, push16_sp, hhi, hlo, read8_push16_hi, read8_push16_lo, joinBytes_hi_lo]

theorem pop16_push16_sp (s : State) (w : Word) : (s.push16 w).pop16.2.sp = s.sp := by
  rw [pop16_snd, setSp_sp, push16_sp, (stackCells_above s.sp).2]

/-- Settles O7: the two cells a word is pushed to, and that popping it undoes the push. -/
theorem pushedWordIsPoppedBack : Obligations.PushedWordIsPoppedBack := fun s w =>
  ⟨read8_push16_hi s w, read8_push16_lo s w, sp_sub_two s.sp, pop16_push16 s w, pop16_push16_sp s w⟩

/-! ### JMP, JSR, RTS, PHP -/

/-- Settles O32: JMP writes PC, so the sequencer adds no length (D18). -/
theorem jmpGoesToItsOperand : Obligations.JmpGoesToItsOperand := fun _ _ => rfl

theorem exec_jsrAbs (a : Word) (s : State) : exec (.jsrAbs a) s = .next ((jsrPushed s).setPc (jsrTarget a s)) := rfl

theorem jsrPushed_leaves (s : State) :
    Leaves s (jsrPushed s) s.a s.x s.y (s.sp - 1#8 - 1#8) s.pc [] (jsrCells s) :=
  leaves_then_push8 (leaves_then_push8 (leaves_refl s) _ (by simp [jsrCells])) _ (by simp [jsrCells])

/-- Settles O33: the frame of the two pushes, and the target of a JSR whose operand no push lands on. -/
theorem jsrPushesItsLastAddressAndJumps : Obligations.JsrPushesItsLastAddressAndJumps := by
  intro s a hiCell loCell
  refine ⟨_, exec_jsrAbs a s, ?_, read8_push16_hi s _, read8_push16_lo s _, jsrTarget_of_disjoint a s⟩
  rw [← sp_sub_two]
  exact leaves_then_setPc (jsrPushed_leaves s) (jsrTarget a s)

/-- Settles O34: with its operand held by memory at PC, JSR's target is the word there after the pushes. -/
theorem jsrReadsItsTargetAfterThePushes : Obligations.JsrReadsItsTargetAfterThePushes := by
  intro s a hlo hhi
  obtain rfl := eq_read16 hlo hhi
  exact ⟨_, exec_jsrAbs _ s, jsrTarget_read16 s⟩

theorem exec_rts (s : State) : exec .rts s = .next (s.pop16.2.setPc (s.pop16.1 + 1#16)) := rfl

theorem pop16_leaves (s : State) : Leaves s s.pop16.2 s.a s.x s.y (s.sp + 2#8) s.pc [] [] := by
  rw [pop16_snd, sp_add_two]
  exact leaves_then_setSp (leaves_then_setSp (leaves_refl s) _) _

/-- Settles O35: RTS pops a word and goes one past it. -/
theorem rtsReturnsPastThePoppedAddress : Obligations.RtsReturnsPastThePoppedAddress := by
  intro s lo hi
  have htarget : s.pop16.1 + 1#16 = BitVec.ofNat 16 ((hi.toNat * 256 + lo.toNat + 1) % 65536) := by
    rw [pop16_fst, sp_add_two, joinBytes_eq_ofNat, BitVec.ofNat_add_ofNat, ofNat_mod_65536]
    rfl
  refine ⟨_, exec_rts s, ?_⟩
  rw [htarget]
  exact leaves_then_setPc (pop16_leaves s) _

/-- Settles O36: the word RTS pops from the cells as JSR left them is the one JSR pushed, the address of its last byte. -/
theorem rtsReturnsAfterTheMatchingJsr : Obligations.RtsReturnsAfterTheMatchingJsr := by
  intro s t u a hjsr hsp hcells
  obtain rfl : (jsrPushed s).setPc (jsrTarget a s) = t := Host.Outcome.next.inj hjsr
  have husp : u.sp = s.sp - 1#8 - 1#8 := hsp
  obtain ⟨hloCell, hhiCell⟩ := stackCells_above s.sp
  have hhi : u.read8 (stackAddr s.sp) = hiByte (jsrReturn s) :=
    (hcells _ (by simp [jsrCells])).trans (read8_push16_hi s _)
  have hlo : u.read8 (stackAddr (s.sp - 1#8)) = loByte (jsrReturn s) :=
    (hcells _ (by simp [jsrCells])).trans (read8_push16_lo s _)
  refine ⟨_, exec_rts u, ?_, ?_⟩
  · rw [setPc_sp, pop16_snd, setSp_sp, husp, hhiCell]
  · rw [setPc_pc, pop16_fst, husp, hhiCell, hloCell, hhi, hlo, joinBytes_hi_lo, jsrReturn, pc_add_two]

theorem getFlag_phpByte (p : Byte) (f : Flag) :
    getFlag (phpByte p) f = (getFlag p f || decide (f = .b ∨ f = .b2)) := by
  cases f <;> simp [getFlag, phpByte, flagMask, flagBit]

/-- Settles O37: PHP is one push, of P with two bits forced. -/
theorem phpPushesStatusWithBreakSet : Obligations.PhpPushesStatusWithBreakSet := by
  intro s cell
  refine ⟨_, impliedForm_eq pushStatus s, leaves_then_setPc (push8_leaves s _) s.pc, rfl, ?_⟩
  have hcell : ((pushStatus s).setPc s.pc).read8 cell = phpByte s.p := read8_push8_same s _
  rw [hcell]
  refine ⟨rfl, by simp [getFlag_phpByte], by simp [getFlag_phpByte], fun f hb hb2 => ?_⟩
  rw [getFlag_phpByte, decide_eq_false (by simp [hb, hb2]), Bool.or_false]
  rfl

end Sys2Proof.Proofs
end

section
/-! PROOFS. The whole-machine frame rules (10_state.md R11 to R13, R16): what each instruction may change, by mnemonic and
mode. -/

namespace Sys2Proof.Proofs

open Sys2Proof.Machine Sys2Proof.Claims

/-- What an instruction of a mnemonic and mode leaves alone: the flags its row of R16's table leaves blank, and the
registers and memory it is not named as a writer of. -/
structure KeepsUnlisted (form : Handler × Mode) (s t : State) : Prop where
  flags  : ∀ f, f ∉ flagsWritten form.1 → t.flag f = s.flag f
  a      : writesA form = false → t.a = s.a
  x      : writesX form.1 = false → t.x = s.x
  y      : form.1 ≠ .ldy → t.y = s.y
  sp     : writesSp form.1 = false → t.sp = s.sp
  memory : storesToMemory form = false → ∀ q, t.read8 q = s.read8 q

/-- The frame of one instruction, held against the tables: a register is kept, or the instruction is named as its writer;
so for memory. -/
theorem keepsUnlisted_of_leaves {form : Handler × Mode} {s t : State} {a x y sp : Byte} {pc : Word} {cells : List Word}
    (h : Leaves s t a x y sp pc (flagsWritten form.1) cells)
    (ha : writesA form = false → a = s.a := by simp [Instr.form, writesA])
    (hx : writesX form.1 = false → x = s.x := by simp [Instr.form, writesX])
    (hy : form.1 ≠ .ldy → y = s.y := by simp [Instr.form])
    (hsp : writesSp form.1 = false → sp = s.sp := by simp [Instr.form, writesSp])
    (hcells : storesToMemory form = false → cells = [] := by simp [Instr.form, storesToMemory]) :
    KeepsUnlisted form s t := by
  obtain ⟨rfl, rfl, rfl, rfl, -, -, hflags, hmem⟩ := h
  exact ⟨hflags, ha, hx, hy, hsp, fun hs q => hmem q (by simp [hcells hs])⟩

/-- Every instruction keeps what the tables do not list for it: one line per mnemonic, from the frame of its effect. -/
theorem exec_keepsUnlisted (i : Instr) (s : State) : ∃ t, exec i s = .next t ∧ KeepsUnlisted i.form s t := by
  cases i with
  | ldaImm _ | ldaZp _ | ldaZpX _ | ldaAbs _ | ldaAbsX _ | ldaAbsY _ | ldaIndX _ | ldaIndY _ =>
    exact ⟨_, rfl, keepsUnlisted_of_leaves (leaves_then_setPc (loadA_leaves _ s) _)⟩
  | ldxImm _ | ldxZp _ | ldxZpY _ | ldxAbs _ | ldxAbsY _ =>
    exact ⟨_, rfl, keepsUnlisted_of_leaves (leaves_then_setPc (loadX_leaves _ s) _)⟩
  | ldyImm _ | ldyZp _ | ldyZpX _ | ldyAbs _ | ldyAbsX _ =>
    exact ⟨_, rfl, keepsUnlisted_of_leaves (leaves_then_setPc (loadY_leaves _ s) _)⟩
  | staZp _ | staZpX _ | staAbs _ | staAbsX _ | staAbsY _ | staIndX _ | staIndY _ =>
    exact ⟨_, rfl, keepsUnlisted_of_leaves (leaves_then_setPc (write8_leaves s _ _) _)⟩
  | tax => exact ⟨_, rfl, keepsUnlisted_of_leaves (leaves_then_setPc (transferAX_leaves s) _)⟩
  | txa => exact ⟨_, rfl, keepsUnlisted_of_leaves (leaves_then_setPc (transferXA_leaves s) _)⟩
  | adcImm _ | adcZp _ | adcZpX _ | adcAbs _ | adcAbsX _ | adcAbsY _ | adcIndX _ | adcIndY _ =>
    exact ⟨_, rfl, keepsUnlisted_of_leaves (leaves_then_setPc (addToA_leaves _ s) _)⟩
  | andImm _ | andZp _ | andZpX _ | andAbs _ | andAbsX _ | andAbsY _ | andIndX _ | andIndY _ =>
    exact ⟨_, rfl, keepsUnlisted_of_leaves (leaves_then_setPc (andToA_leaves _ s) _)⟩
  | oraImm _ | oraZp _ | oraZpX _ | oraAbs _ | oraAbsX _ | oraAbsY _ | oraIndX _ | oraIndY _ =>
    exact ⟨_, rfl, keepsUnlisted_of_leaves (leaves_then_setPc (orToA_leaves _ s) _)⟩
  | aslAcc =>
    exact ⟨_, rfl, keepsUnlisted_of_leaves (leaves_then_setPc (leaves_then_setA (aslFlags_leaves s.a s []) _) _)⟩
  | aslZp _ | aslZpX _ | aslAbs _ | aslAbsX _ =>
    exact ⟨_, rfl, keepsUnlisted_of_leaves (modify_leaves _ _ _ (aslFlags_leaves _ s _))⟩
  | rolAcc =>
    exact ⟨_, rfl, keepsUnlisted_of_leaves (leaves_then_setPc (leaves_then_setA (rolFlags_leaves s.a s []) _) _)⟩
  | rolZp _ | rolZpX _ | rolAbs _ | rolAbsX _ =>
    exact ⟨_, rfl, keepsUnlisted_of_leaves (modify_leaves _ _ _ (rolFlags_leaves _ s _))⟩
  | lsrAcc =>
    exact ⟨_, rfl, keepsUnlisted_of_leaves (leaves_then_setPc (leaves_then_setA (lsrFlags_leaves s.a s) _) _)⟩
  | inx => exact ⟨_, rfl, keepsUnlisted_of_leaves (leaves_then_setPc (incX_leaves s) _)⟩
  | dex => exact ⟨_, rfl, keepsUnlisted_of_leaves (leaves_then_setPc (decX_leaves s) _)⟩
  | incZp _ | incZpX _ | incAbs _ | incAbsX _ =>
    exact ⟨_, rfl, keepsUnlisted_of_leaves (modify_leaves _ _ _ (incFlags_leaves _ s _))⟩
  | decZp _ | decZpX _ | decAbs _ | decAbsX _ =>
    exact ⟨_, rfl, keepsUnlisted_of_leaves (modify_leaves _ _ _ (decFlags_leaves _ s _))⟩
  | cmpImm _ | cmpZp _ | cmpZpX _ | cmpAbs _ | cmpAbsX _ | cmpAbsY _ | cmpIndX _ | cmpIndY _ =>
    exact ⟨_, rfl, keepsUnlisted_of_leaves (leaves_then_setPc (compareReg_leaves .a _ s) _)⟩
  | cpxImm _ | cpxZp _ | cpxAbs _ =>
    exact ⟨_, rfl, keepsUnlisted_of_leaves (leaves_then_setPc (compareReg_leaves .x _ s) _)⟩
  | cpyImm _ | cpyZp _ | cpyAbs _ =>
    exact ⟨_, rfl, keepsUnlisted_of_leaves (leaves_then_setPc (compareReg_leaves .y _ s) _)⟩
  | bitZp _ | bitAbs _ => exact ⟨_, rfl, keepsUnlisted_of_leaves (leaves_then_setPc (bitTest_leaves _ s) _)⟩
  | sec | clc => exact ⟨_, rfl, keepsUnlisted_of_leaves (leaves_then_setPc (putCarry_leaves _ s) _)⟩
  | bcc r | bcs r | beq r | bne r | bmi r | bpl r =>
    exact ⟨_, branchForm_next _ r s, keepsUnlisted_of_leaves (cells := []) (leaves_then_setPc (leaves_refl s) _)⟩
  | jmpAbs _ | nop => exact ⟨_, rfl, keepsUnlisted_of_leaves (cells := []) (leaves_then_setPc (leaves_refl s) _)⟩
  | jsrAbs a => exact ⟨_, rfl, keepsUnlisted_of_leaves (leaves_then_setPc (jsrPushed_leaves s) _)⟩
  | rts => exact ⟨_, rfl, keepsUnlisted_of_leaves (leaves_then_setPc (pop16_leaves s) _)⟩
  | php => exact ⟨_, rfl, keepsUnlisted_of_leaves (leaves_then_setPc (push8_leaves s _) _)⟩
  | halt => exact ⟨_, rfl, fun _ _ => rfl, fun _ => rfl, fun _ => rfl, fun _ => rfl, fun _ => rfl, fun _ _ => rfl⟩

theorem keepsUnlisted_of_exec {i : Instr} {s t : State} (h : exec i s = .next t) : KeepsUnlisted i.form s t := by
  obtain ⟨t', ht', hkeeps⟩ := exec_keepsUnlisted i s
  obtain rfl : t' = t := Host.Outcome.next.inj (ht'.symm.trans h)
  exact hkeeps

/-- Settles O46: the flags' part of `KeepsUnlisted`. -/
theorem flagsOutsideTheTableAreKept : Obligations.FlagsOutsideTheTableAreKept :=
  fun _ _ _ h => (keepsUnlisted_of_exec h).flags

/-- Settles O47: the registers' and memory's part of `KeepsUnlisted`. -/
theorem registersAndMemoryHaveOnlyTheirWriters : Obligations.RegistersAndMemoryHaveOnlyTheirWriters :=
  fun _ _ _ h =>
    let hkeeps := keepsUnlisted_of_exec h
    ⟨hkeeps.a, hkeeps.x, hkeeps.y, hkeeps.sp, hkeeps.memory⟩

/-! ### The stack page -/

/-- The instructions of JSR, PHP and RTS. -/
theorem stack_instr_cases {i : Instr} (h : i.form.1 ∈ [.jsr, .php, .rts]) :
    (∃ a, i = .jsrAbs a) ∨ i = .php ∨ i = .rts := by
  cases i with
  | jsrAbs a => exact .inl ⟨a, rfl⟩
  | php => exact .inr (.inl rfl)
  | rts => exact .inr (.inr rfl)
  | _ => simp [Instr.form] at h

theorem stackAddr_in_page (sp : Byte) : 0x0100 ≤ (stackAddr sp).toNat ∧ (stackAddr sp).toNat ≤ 0x01FF := by
  have := sp.isLt
  rw [stackAddr_toNat]
  omega

/-- An instruction whose frame lists only stack cells changes bytes of the stack page alone. -/
theorem changed_byte_in_page {s t : State} {a x y sp : Byte} {pc : Word} {flags : List Flag} {cells : List Word}
    (h : Leaves s t a x y sp pc flags cells) (hcells : ∀ c ∈ cells, ∃ p, c = stackAddr p) {q : Word}
    (hq : t.read8 q ≠ s.read8 q) : 0x0100 ≤ q.toNat ∧ q.toNat ≤ 0x01FF := by
  obtain ⟨-, -, -, -, -, -, -, hmem⟩ := h
  have hmem' : q ∈ cells := by
    by_contra hnot
    exact hq (hmem q hnot)
  obtain ⟨p, rfl⟩ := hcells q hmem'
  exact stackAddr_in_page p

/-- Settles O48: the cells in the frames of JSR, PHP and RTS are stack cells, and there are none in RTS's. -/
theorem stackStaysInItsPage : Obligations.StackStaysInItsPage := by
  intro i s t hi hexec q hq
  obtain ⟨a, rfl⟩ | rfl | rfl := stack_instr_cases hi
  · obtain rfl : (jsrPushed s).setPc (jsrTarget a s) = t := Host.Outcome.next.inj hexec
    exact changed_byte_in_page (leaves_then_setPc (jsrPushed_leaves s) _) (by simp [jsrCells]) hq
  · obtain rfl : (pushStatus s).setPc _ = t := Host.Outcome.next.inj hexec
    exact changed_byte_in_page (leaves_then_setPc (push8_leaves s _) _) (by simp) hq
  · obtain rfl : s.pop16.2.setPc (s.pop16.1 + 1#16) = t := Host.Outcome.next.inj hexec
    exact changed_byte_in_page (leaves_then_setPc (pop16_leaves s) _) (by simp) hq

end Sys2Proof.Proofs
end

section
/-! PROOFS. The canonical form of memory determines it by its reads (log entry 1), and what the host sees determines the
state (10_state.md R10, R24). -/

namespace Sys2Proof.Proofs

open Sys2Proof.Machine

/-- Below the lower bound of a canonical list nothing is listed. -/
theorem read_eq_blank_of_lt {lo a : Nat} {m : Memory} (hm : Memory.wfFrom lo m = true) (ha : a < lo) :
    Memory.read m a = Memory.blank := by
  induction m generalizing lo with
  | nil => rfl
  | cons c m ih =>
    obtain ⟨hlo, -, -, htail⟩ := (wfFrom_cons lo c m).mp hm
    rw [read_cons, if_neg (by omega)]
    exact ih htail (by omega)

/-- The first listed cell does not read as blank, and every cell below it does. -/
theorem read_cons_head {lo : Nat} {c : Host.Cell} {m : Memory} (hm : Memory.wfFrom lo (c :: m) = true) :
    Memory.read (c :: m) c.1 ≠ Memory.blank ∧ ∀ a, a < c.1 → Memory.read (c :: m) a = Memory.blank := by
  obtain ⟨-, -, hv, htail⟩ := (wfFrom_cons lo c m).mp hm
  refine ⟨by rwa [read_cons, if_pos rfl], fun a ha => ?_⟩
  rw [read_cons, if_neg (by omega)]
  exact read_eq_blank_of_lt htail (by omega)

/-- Canonical lists that read the same have their first entry at the same address. -/
theorem head_address_eq {lo : Nat} {c c' : Host.Cell} {m m' : Memory} (hm : Memory.wfFrom lo (c :: m) = true)
    (hm' : Memory.wfFrom lo (c' :: m') = true)
    (h : ∀ a < Config.memSize, Memory.read (c :: m) a = Memory.read (c' :: m') a) : c.1 = c'.1 := by
  obtain ⟨-, hc, -, -⟩ := (wfFrom_cons lo c m).mp hm
  obtain ⟨-, hc', -, -⟩ := (wfFrom_cons lo c' m').mp hm'
  obtain ⟨hhead, hbelow⟩ := read_cons_head hm
  obtain ⟨hhead', hbelow'⟩ := read_cons_head hm'
  rcases Nat.lt_trichotomy c.1 c'.1 with hlt | heq | hgt
  · exact absurd ((h c.1 hc).trans (hbelow' c.1 hlt)) hhead
  · exact heq
  · exact absurd ((h c'.1 hc').symm.trans (hbelow c'.1 hgt)) hhead'

/-- Canonical lists that read the same at every address are the same list. -/
theorem eq_of_canonical_of_reads {lo : Nat} {m m' : Memory} (hm : Memory.wfFrom lo m = true)
    (hm' : Memory.wfFrom lo m' = true) (h : ∀ a < Config.memSize, Memory.read m a = Memory.read m' a) : m = m' := by
  induction m generalizing lo m' with
  | nil =>
    cases m' with
    | nil => rfl
    | cons c' m' =>
      obtain ⟨-, hc', -, -⟩ := (wfFrom_cons lo c' m').mp hm'
      exact absurd (h c'.1 hc').symm (read_cons_head hm').1
  | cons c m ih =>
    obtain ⟨-, hc, -, htail⟩ := (wfFrom_cons lo c m).mp hm
    cases m' with
    | nil => exact absurd (h c.1 hc) (read_cons_head hm).1
    | cons c' m' =>
      obtain ⟨-, -, -, htail'⟩ := (wfFrom_cons lo c' m').mp hm'
      have haddr : c.1 = c'.1 := head_address_eq hm hm' h
      have hvalue : c.2 = c'.2 := by
        have := h c.1 hc
        rwa [read_cons, if_pos rfl, read_cons, if_pos haddr.symm] at this
      rw [← haddr] at htail'
      have hreads : ∀ a < Config.memSize, Memory.read m a = Memory.read m' a := by
        intro a ha
        by_cases hle : a < c.1 + 1
        · rw [read_eq_blank_of_lt htail hle, read_eq_blank_of_lt htail' hle]
        · have := h a ha
          rwa [read_cons, if_neg (by omega), read_cons, if_neg (by omega)] at this
      rw [Prod.ext haddr hvalue, ih htail htail' hreads]

/-- Settles O4: every address below 65536 is that of a read through the state. -/
theorem canonicalMemoriesWithEqualReadsAreEqual : Obligations.CanonicalMemoriesWithEqualReadsAreEqual := by
  intro s t hs ht h
  refine eq_of_canonical_of_reads hs ht fun a ha => ?_
  have hq : (BitVec.ofNat 16 a).toNat = a := Nat.mod_eq_of_lt ha
  have := h (BitVec.ofNat 16 a)
  rwa [State.read8, State.read8, hq] at this

/-- The eight flag accessors show the whole status byte. -/
theorem p_eq_of_visible {s t : State} (h : visible s = visible t) : s.p = t.p := by
  simp only [visible, Visible.mk.injEq] at h
  obtain ⟨-, -, -, -, -, hc, hz, hi, hd, hb, hb2, hv, hn⟩ := h
  refine status_ext fun f => ?_
  cases f with
  | c => exact hc
  | z => exact hz
  | i => exact hi
  | d => exact hd
  | b => exact hb
  | b2 => exact hb2
  | v => exact hv
  | n => exact hn

/-- Settles O5: field by field, P by its flags and memory by its reads. -/
theorem accessorsAndMemoryShowTheWholeState : Obligations.AccessorsAndMemoryShowTheWholeState := by
  intro s t hs ht hvisible hreads hrun
  have hp := p_eq_of_visible hvisible
  have hmem := canonicalMemoriesWithEqualReadsAreEqual s t hs ht hreads
  simp only [visible, Visible.mk.injEq] at hvisible
  obtain ⟨ha, hx, hy, hsp, hpc, -⟩ := hvisible
  exact state_ext ha hx hy hsp hpc hp hmem hrun

end Sys2Proof.Proofs
end

section
/-! PROOFS. The invariant (10_state.md R18, R19, 30_encoding.md R58, log entry 1): it holds after reset, and every step and
every host command keeps it. -/

namespace Sys2Proof.Proofs

open Sys2Proof.Machine

/-! ### Changes that keep the invariant -/

/-- What one instruction does to the parts of the state the invariant speaks of: memory stays canonical, and the four
inert flags are kept. -/
structure SafeChange (s t : State) : Prop where
  canonical : s.mem.wf = true → t.mem.wf = true
  inert     : ∀ f, f ≠ .c → f ≠ .z → f ≠ .v → f ≠ .n → t.flag f = s.flag f

theorem safeChange_of_only {s t : State} (h : OnlyRegsAndFlags s t) : SafeChange s t :=
  ⟨fun hm => by rwa [h.mem], h.inert⟩

theorem safeChange_write8 {s t : State} (h : SafeChange s t) (addr : Word) (v : Byte) :
    SafeChange s (t.write8 addr v) :=
  ⟨fun hm => wf_write8 addr v (h.canonical hm), h.inert⟩

theorem safeChange_push8 {s t : State} (h : SafeChange s t) (v : Byte) : SafeChange s (t.push8 v) :=
  ⟨fun hm => wf_push8 v (h.canonical hm), h.inert⟩

theorem safeChange_setPc {s t : State} (h : SafeChange s t) (w : Word) : SafeChange s (t.setPc w) :=
  ⟨h.canonical, h.inert⟩

theorem safeChange_refl (s : State) : SafeChange s s := safeChange_of_only (onlyRegsAndFlags_refl s)

/-- By the ten shapes of an instruction's meaning. -/
theorem exec_safeChange (i : Instr) (s : State) : ∃ t, exec i s = .next t ∧ SafeChange s t := by
  rcases exec_shape i with ⟨m, f, hm, hf, h⟩ | ⟨m, hm, h⟩ | ⟨m, result, flags, hm, hf, h⟩ | ⟨f, hf, h⟩ |
    ⟨condition, r, h⟩ | ⟨a, rfl⟩ | ⟨a, rfl⟩ | rfl | rfl | rfl
  · obtain ⟨v, hv⟩ := operandByte_isSome m s hm
    exact ⟨_, (h s).trans (readForm_next f hv), safeChange_setPc (safeChange_of_only (hf v s)) _⟩
  · obtain ⟨addr, haddr⟩ := ea_isSome m s hm
    exact ⟨_, (h s).trans (storeForm_next State.a haddr),
      safeChange_setPc (safeChange_write8 (safeChange_refl s) addr s.a) _⟩
  · obtain ⟨addr, haddr⟩ := ea_isSome m s hm
    obtain ⟨honly, -⟩ := hf (s.read8 addr) s
    exact ⟨_, (h s).trans (modifyForm_next result flags haddr),
      safeChange_setPc (safeChange_write8 (safeChange_of_only honly) addr _) _⟩
  · exact ⟨_, h s, safeChange_setPc (safeChange_of_only (hf s)) _⟩
  · exact ⟨_, (h s).trans (branchForm_next condition r s), safeChange_setPc (safeChange_refl s) _⟩
  · exact ⟨_, rfl, safeChange_setPc (safeChange_refl s) a⟩
  · exact ⟨_, rfl, safeChange_setPc (safeChange_push8 (safeChange_push8 (safeChange_refl s) _) _) _⟩
  · exact ⟨_, rfl, id, fun _ _ _ _ _ => rfl⟩
  · exact ⟨_, rfl, safeChange_setPc (safeChange_push8 (safeChange_refl s) _) _⟩
  · exact ⟨_, rfl, id, fun _ _ _ _ _ => rfl⟩

theorem inertFlags_of_safeChange {s t : State} (h : SafeChange s t) (hs : s.InertFlagsAtReset) :
    t.InertFlagsAtReset := by
  obtain ⟨hi, hd, hb, hb2⟩ := hs
  exact ⟨(h.inert .i (by decide) (by decide) (by decide) (by decide)).trans hi,
    (h.inert .d (by decide) (by decide) (by decide) (by decide)).trans hd,
    (h.inert .b (by decide) (by decide) (by decide) (by decide)).trans hb,
    (h.inert .b2 (by decide) (by decide) (by decide) (by decide)).trans hb2⟩

/-! ### Steps -/

/-- An instruction either keeps `run_state` or is Halt, so it never leaves InvalidAddressingMode. -/
theorem exec_addressingNeverInvalid {i : Instr} {s t : State} (hs : s.AddressingNeverInvalid)
    (h : exec i s = .next t) : t.AddressingNeverInvalid := by
  unfold State.AddressingNeverInvalid at *
  by_cases hhalt : i = .halt
  · subst hhalt
    obtain rfl : s.halt = t := Host.Outcome.next.inj h
    simp
  · obtain ⟨t', ht', hkeeps⟩ := exec_keeps_runState i s
    obtain rfl : t' = t := Host.Outcome.next.inj (ht'.symm.trans h)
    rwa [hkeeps hhalt]

theorem exec_keeps_inv {i : Instr} {s t : State} (hs : s.Inv) (h : exec i s = .next t) : t.Inv := by
  obtain ⟨hcanonical, hinert, haddressing⟩ := hs
  obtain ⟨t', ht', hsafe⟩ := exec_safeChange i s
  obtain rfl : t' = t := Host.Outcome.next.inj (ht'.symm.trans h)
  exact ⟨hsafe.canonical hcanonical, inertFlags_of_safeChange hsafe hinert, exec_addressingNeverInvalid haddressing h⟩

/-- Settles O49: a step runs an instruction past the opcode byte, or faults for an illegal opcode. -/
theorem stepKeepsTheInvariant : Obligations.StepKeepsTheInvariant := by
  intro s t hs hstep
  rcases step_cases s with ⟨-, e⟩ | ⟨r, -, e⟩ | ⟨i, -, -, e⟩ | ⟨-, -, e⟩
  · rw [hstep] at e
    cases e
  · rw [hstep] at e
    cases e
  · exact exec_keeps_inv (s := pastOpcode s) hs (e.symm.trans hstep)
  · obtain rfl : illegalOutcome s = t := Host.Outcome.next.inj (e.symm.trans hstep)
    obtain ⟨hcanonical, hinert, -⟩ := hs
    refine ⟨hcanonical, hinert, ?_⟩
    unfold State.AddressingNeverInvalid
    simp [illegalOutcome]

/-! ### Host commands -/

/-- P holds the reset value of each inert flag after reset. -/
theorem pReset_inert : getFlag Config.pReset .i = true ∧ getFlag Config.pReset .d = false ∧
    getFlag Config.pReset .b = false ∧ getFlag Config.pReset .b2 = true := by decide

/-- A Running core with P at its reset value meets the invariant when its memory is canonical. -/
theorem inv_of_reset_p {s : State} (hm : s.MemoryCanonical) (hp : s.p = Config.pReset) (hr : s.runState = .running) :
    s.Inv := by
  refine ⟨hm, ?_, ?_⟩
  · unfold State.InertFlagsAtReset State.flag
    rw [hp]
    exact pReset_inert
  · unfold State.AddressingNeverInvalid
    simp [hr]

/-- Settles O50: power-on memory is the empty list. -/
theorem resetMeetsTheInvariant : Obligations.ResetMeetsTheInvariant := inv_of_reset_p rfl rfl rfl

theorem inv_with_mem {s : State} {m : Memory} (hs : s.Inv) (hm : s.mem.wf = true → Memory.wf m = true) :
    State.Inv { s with mem := m } := by
  obtain ⟨hcanonical, hinert, haddressing⟩ := hs
  exact ⟨hm hcanonical, hinert, haddressing⟩

theorem write8_keeps_inv {s : State} (hs : s.Inv) (addr : Word) (v : Byte) : (s.write8 addr v).Inv :=
  inv_with_mem hs (wf_write8 addr v)

/-- What load() writes is memory, byte by byte. -/
theorem load_keeps_inv {bytes : List Byte} {s t : State} (hs : s.Inv) (h : load bytes s = .next t) : t.Inv := by
  unfold load at h
  split at h
  · obtain rfl := Host.Outcome.next.inj h
    obtain ⟨m, hm, hwf⟩ := writeBytes_frame bytes Config.loadBase s
    rw [hm]
    have hcopied : State.Inv { s with mem := m } := inv_with_mem hs hwf
    exact write8_keeps_inv (write8_keeps_inv hcopied _ _) _ _
  · cases h

theorem hostWrites_keeps_inv {s : State} (ws : HostWrites) (hs : s.Inv) : (hostWrites ws s).Inv := by
  obtain ⟨m, hm, hwf⟩ := hostWrites_frame ws s
  rw [hm]
  exact inv_with_mem hs hwf

/-- By induction on the observer's calls: each is made after a step, and writes memory. -/
theorem runs_keeps_inv {s t : State} {calls : List ObserverCall} {o : StepOutcome} (hs : s.Inv)
    (h : runs s calls t o) : t.Inv := by
  induction calls generalizing s with
  | nil =>
    obtain ⟨hstep, -, -⟩ := h
    exact stepKeepsTheInvariant s t hs hstep
  | cons c later ih =>
    obtain ⟨hstep, -, hlater⟩ := h
    exact ih (hostWrites_keeps_inv c.writes (stepKeepsTheInvariant s c.seen hs hstep)) hlater

theorem performs_keeps_inv {cmd : HostCommand} {s t : State} (hs : s.Inv) (h : performs cmd s (.next t)) : t.Inv := by
  cases cmd with
  | construct =>
    obtain rfl : t = State.powerOn := Host.Outcome.next.inj h
    exact resetMeetsTheInvariant
  | load bytes => exact load_keeps_inv hs h.symm
  | reset =>
    obtain rfl : t = s.hostReset := Host.Outcome.next.inj h
    obtain ⟨hcanonical, -, -⟩ := hs
    exact inv_of_reset_p hcanonical rfl rfl
  | step => exact stepKeepsTheInvariant s t hs h.symm
  | run writes =>
    obtain ⟨calls, o, -, hruns⟩ := h
    exact runs_keeps_inv hs hruns
  | write addr value =>
    obtain rfl : t = hostWrite addr value s := Host.Outcome.next.inj h
    exact write8_keeps_inv hs addr value

/-- Settles O51: by induction on the commands. -/
theorem hostCommandsKeepTheInvariant : Obligations.HostCommandsKeepTheInvariant := by
  intro cmds
  induction cmds with
  | nil =>
    intro s t hs h
    obtain rfl : t = s := Host.Outcome.next.inj h
    exact hs
  | cons cmd later ih =>
    rintro s t hs ⟨r, hr, hlater⟩
    cases r with
    | next u => exact ih u t (performs_keeps_inv hs hr) hlater
    | fault f => cases hlater
    | refused f => cases hlater

end Sys2Proof.Proofs
end

section
/-! PROOFS. Power-on, load and reset (70_reset_and_hazards.md R190 to R193). -/

namespace Sys2Proof.Proofs

open Sys2Proof.Machine

/-- Settles O52: the fields of the power-on state, its flags those of P_RESET and its memory the empty list. -/
theorem powerOnState : Obligations.PowerOnState :=
  ⟨rfl, rfl, rfl, rfl, rfl, rfl, fun f => by cases f <;> decide, fun _ => rfl, rfl⟩

/-- Settles O53: reset() has one answer, and its PC is the word at the reset vector. -/
theorem resetReloadsFromTheVector : Obligations.ResetReloadsFromTheVector := fun s =>
  ⟨s.hostReset, fun _ => Iff.rfl, rfl, rfl, rfl, rfl, rfl, joinBytes_toNat _ _, fun _ => rfl, rfl⟩

/-! ### The bytes load() copies -/

/-- One past an address, then k further, is k + 1 past it. -/
theorem addr_succ_add (addr : Word) (k : Nat) :
    addr + 1#16 + BitVec.ofNat 16 k = addr + BitVec.ofNat 16 (k + 1) := by
  rw [Nat.add_comm k 1, BitVec.ofNat_add, BitVec.add_assoc]

theorem read8_writeBytes_other {bytes : List Byte} {addr q : Word} (s : State)
    (h : ∀ k < bytes.length, q ≠ addr + BitVec.ofNat 16 k) : (writeBytes bytes addr s).read8 q = s.read8 q := by
  induction bytes generalizing addr s with
  | nil => rfl
  | cons b bytes ih =>
    have hq : q ≠ addr := by simpa using h 0 (by simp)
    have hlater : ∀ k < bytes.length, q ≠ addr + 1#16 + BitVec.ofNat 16 k := fun k hk => by
      rw [addr_succ_add]
      exact h (k + 1) (by simpa using hk)
    exact (ih (s.write8 addr b) hlater).trans (read8_write8_other s b hq)

/-- No address is a cell of the rest of a copy that starts at it and is no longer than memory. -/
theorem addr_ne_succ_add {n k : Nat} (addr : Word) (hn : n + 1 ≤ 65536) (hk : k < n) :
    addr ≠ addr + 1#16 + BitVec.ofNat 16 k := by
  intro h
  have := addr.isLt
  have htoNat := congrArg BitVec.toNat h
  rw [addr_succ_add, BitVec.toNat_add, BitVec.toNat_ofNat] at htoNat
  omega

theorem read8_writeBytes {bytes : List Byte} (addr : Word) (s : State) (hlength : bytes.length ≤ 65536) (k : Nat)
    (hk : k < bytes.length) : (writeBytes bytes addr s).read8 (addr + BitVec.ofNat 16 k) = bytes[k] := by
  induction bytes generalizing addr s k with
  | nil => cases hk
  | cons b bytes ih =>
    rw [List.length_cons] at hlength hk
    cases k with
    | zero =>
      have hother := read8_writeBytes_other (s.write8 addr b) fun k hk => addr_ne_succ_add addr hlength hk
      have hfirst : (writeBytes (b :: bytes) addr s).read8 addr = b := hother.trans (read8_write8_same s addr b)
      simpa using hfirst
    | succ k =>
      rw [← addr_succ_add]
      exact ih (addr + 1#16) (s.write8 addr b) (by omega) k (by omega)

/-! ### load() -/

/-- The state load() leaves: the image at the load base, then the base at the reset vector. -/
def loaded (bytes : List Byte) (s : State) : State :=
  (writeBytes bytes Config.loadBase s).write16 Config.resetVector Config.loadBase

theorem load_of_fits {bytes : List Byte} (s : State) (h : bytes.length ≤ 32768) :
    load bytes s = .next (loaded bytes s) := if_pos h

theorem loaded_read8 (bytes : List Byte) (s : State) (q : Word) :
    (loaded bytes s).read8 q =
      if q = 0xFFFD#16 then 0x80#8 else if q = 0xFFFC#16 then 0x00#8
      else (writeBytes bytes Config.loadBase s).read8 q :=
  read8_write16 _ _ _ q

theorem loaded_frame (bytes : List Byte) (s : State) : ∃ m, loaded bytes s = { s with mem := m } := by
  obtain ⟨m, hm, -⟩ := writeBytes_frame bytes Config.loadBase s
  exact ⟨_, by rw [loaded, hm]; rfl⟩

/-- Image byte k has the address 0x8000 + k, which does not wrap. -/
theorem imageAddr_toNat {k : Nat} (hk : k < 32768) : (BitVec.ofNat 16 (0x8000 + k)).toNat = 0x8000 + k :=
  Nat.mod_eq_of_lt (by omega)

theorem imageAddr_eq (k : Nat) : BitVec.ofNat 16 (0x8000 + k) = Config.loadBase + BitVec.ofNat 16 k :=
  BitVec.ofNat_add 0x8000 k

theorem loaded_image (bytes : List Byte) (s : State) (hlength : bytes.length ≤ 32768) (k : Nat) (hk : k < bytes.length)
    (hlo : k ≠ 0x7FFC) (hhi : k ≠ 0x7FFD) : (loaded bytes s).read8 (BitVec.ofNat 16 (0x8000 + k)) = bytes[k] := by
  have htoNat := imageAddr_toNat (hk.trans_le hlength)
  have hnotHi : BitVec.ofNat 16 (0x8000 + k) ≠ 0xFFFD#16 := fun h => by
    rw [h, BitVec.toNat_ofNat] at htoNat
    omega
  have hnotLo : BitVec.ofNat 16 (0x8000 + k) ≠ 0xFFFC#16 := fun h => by
    rw [h, BitVec.toNat_ofNat] at htoNat
    omega
  rw [loaded_read8, if_neg hnotHi, if_neg hnotLo, imageAddr_eq]
  exact read8_writeBytes Config.loadBase s (by omega) k hk

theorem loaded_outside (bytes : List Byte) (s : State) (hlength : bytes.length ≤ 32768) {q : Word}
    (hq : q.toNat < 0x8000 ∨ 0x8000 + bytes.length ≤ q.toNat) (hlo : q ≠ 0xFFFC#16) (hhi : q ≠ 0xFFFD#16) :
    (loaded bytes s).read8 q = s.read8 q := by
  rw [loaded_read8, if_neg hhi, if_neg hlo]
  refine read8_writeBytes_other s fun k hk h => ?_
  have htoNat := imageAddr_toNat (hk.trans_le hlength)
  rw [imageAddr_eq, ← h] at htoNat
  omega

/-- Settles O54: the copy, the reset vector written over it, and the refusal of an image that does not fit. -/
theorem loadCopiesTheImageAndSetsTheVector : Obligations.LoadCopiesTheImageAndSetsTheVector := by
  refine fun bytes s => ⟨fun hlength => ?_, fun hlength => if_neg (Nat.not_le_of_lt hlength)⟩
  refine ⟨loaded bytes s, load_of_fits s hlength, loaded_frame bytes s, ?_, ?_, loaded_image bytes s hlength,
    fun q => loaded_outside bytes s hlength⟩
  · rw [loaded_read8, if_neg (by decide), if_pos rfl]
  · rw [loaded_read8, if_pos rfl]

/-- The word load() leaves at the reset vector. -/
theorem loaded_resetVector (bytes : List Byte) (s : State) :
    (loaded bytes s).read16 Config.resetVector = Config.loadBase := by
  have hhi : (loaded bytes s).read8 (Config.resetVector + 1#16) = hiByte Config.loadBase := by
    rw [loaded_read8, if_pos (by decide)]; decide
  have hlo : (loaded bytes s).read8 Config.resetVector = loByte Config.loadBase := by
    rw [loaded_read8, if_neg (by decide), if_pos (by decide)]; decide
  exact (eq_read16 hlo hhi).symm

/-- Settles O55: reset() after load() takes PC from the vector load() wrote; Y is still what power-on left. -/
theorem bootStartsAtTheImage : Obligations.BootStartsAtTheImage := by
  intro bytes hlength
  have hload := load_of_fits State.powerOn hlength
  refine ⟨(loaded bytes State.powerOn).hostReset, ?_, fun s r => ?_, rfl, rfl, ?_, rfl, rfl,
    loaded_resetVector bytes State.powerOn, rfl, loaded_image bytes State.powerOn hlength⟩
  · simp only [boot, hload]
  · simp [performsAll, performs, hload]
  · obtain ⟨m, hm⟩ := loaded_frame bytes State.powerOn
    rw [hm]
    rfl

end Sys2Proof.Proofs
end

section
/-! PROOFS. Runs (40_dispatch_and_addressing.md R73, R74, 70_reset_and_hazards.md R194, R199): run_for by its first step,
and the relation of run(observer). -/

namespace Sys2Proof.Proofs

open Sys2Proof.Machine

/-! ### run_for -/

/-- How a run_for that answers an end began: with no fuel, with a step that stopped the core, or with a step that left it
Running, after which the rest of the run follows. -/
theorem runFor_cases {n : Nat} {s : State} {e : RunEnd} (h : runFor n s = .next e) :
    (n = 0 ∧ s.runState = .running ∧ e = { last := s, observed := [] }) ∨
    (∃ m t, n = m + 1 ∧ step s = .next t ∧ t.runState ≠ .running ∧ e = { last := t, observed := [] }) ∨
    (∃ m t e', n = m + 1 ∧ step s = .next t ∧ t.runState = .running ∧ runFor m t = .next e' ∧
      e = { last := e'.last, observed := t :: e'.observed }) := by
  cases n with
  | zero =>
    have hr : s.runState = .running := by
      unfold runFor at h
      split at h
      · assumption
      · cases h
      · cases h
    exact .inl ⟨rfl, hr, Host.Outcome.next.inj (h.symm.trans (runFor_zero hr))⟩
  | succ m =>
    have hstep : ∃ t, step s = .next t := by
      unfold runFor at h
      split at h
      · next t ht => exact ⟨t, ht⟩
      · cases h
      · cases h
    obtain ⟨t, ht⟩ := hstep
    by_cases hr : t.runState = .running
    · obtain ⟨e', he'⟩ := runFor_running m hr
      exact .inr (.inr ⟨m, t, e', rfl, ht, hr, he', Host.Outcome.next.inj (h.symm.trans (runFor_goes_on ht hr he'))⟩)
    · exact .inr (.inl ⟨m, t, rfl, ht, hr, Host.Outcome.next.inj (h.symm.trans (runFor_stops ht hr))⟩)

/-- Settles O56: by induction on the fuel, the first step deciding whether the run goes on. -/
theorem runForStopsOrUsesItsFuel : Obligations.RunForStopsOrUsesItsFuel := by
  intro n
  induction n with
  | zero => exact fun s hr => ⟨s, [], runFor_zero hr, by simp, .inl ⟨rfl, rfl⟩⟩
  | succ n ih =>
    intro s hr
    obtain ⟨t, ht⟩ := step_running hr
    by_cases htr : t.runState = .running
    · obtain ⟨last, observed, hrun, hchain, hend⟩ := ih t htr
      refine ⟨last, t :: observed, runFor_goes_on ht htr hrun, ?_, ?_⟩
      · intro p hp
        rw [List.zip_cons_cons, List.mem_cons] at hp
        obtain rfl | hp := hp
        · exact ⟨ht, htr⟩
        · exact hchain p hp
      · rw [List.length_cons, List.getLastD_cons, Nat.succ_inj, Nat.succ_lt_succ_iff]
        exact hend
    · exact ⟨t, [], runFor_stops ht htr, by simp, .inr ⟨Nat.succ_pos n, ht, htr⟩⟩

/-- Settles O57: a run of one step by whether its step stops, and the composition by induction on the first run. -/
theorem runsCompose : Obligations.RunsCompose := by
  intro s hr
  refine ⟨runFor_zero hr, fun t ht => ?_, fun m => ?_⟩
  · split
    · next htr => exact runFor_goes_on ht htr (runFor_zero htr)
    · next htr => exact runFor_stops ht htr
  · clear hr
    induction m generalizing s with
    | zero =>
      intro n e e' he _ he'
      obtain ⟨-, -, rfl⟩ | ⟨m, t, hm, -⟩ | ⟨m, t, e1, hm, -⟩ := runFor_cases he
      · rw [Nat.zero_add, he']
        rfl
      · cases hm
      · cases hm
    | succ m ih =>
      intro n e e' he hrunning he'
      obtain ⟨hm, -⟩ | ⟨m', t, -, -, hstop, rfl⟩ | ⟨m', t, e1, hm, ht, htr, he1, rfl⟩ := runFor_cases he
      · cases hm
      · contradiction
      · obtain rfl := Nat.succ.inj hm
        rw [Nat.succ_add]
        exact runFor_goes_on ht htr (ih t n e1 e' he1 hrunning he')

/-! ### run(observer) and run_for -/

/-- A run whose observer was never called is one step that stops the core. -/
theorem runs_nil_iff_runFor {s t : State} {o : StepOutcome} :
    runs s [] t o ↔
      ∃ n, runFor n s = .next { last := t, observed := [] } ∧ stepOutcome t = o ∧ o ≠ .running := by
  constructor
  · rintro ⟨hstep, rfl, ho⟩
    have hstop : t.runState ≠ .running := fun hr => ho ((stepOutcome_eq_running t).mpr hr)
    exact ⟨1, runFor_stops hstep hstop, rfl, ho⟩
  · rintro ⟨n, hrun, rfl, ho⟩
    obtain ⟨-, hr, he⟩ | ⟨m, u, -, hstep, -, he⟩ | ⟨m, u, e', -, -, -, -, he⟩ := runFor_cases hrun
    · obtain ⟨rfl, -⟩ := RunEnd.mk.inj he
      exact absurd ((stepOutcome_eq_running t).mpr hr) ho
    · obtain ⟨rfl, -⟩ := RunEnd.mk.inj he
      exact ⟨hstep, rfl, ho⟩
    · obtain ⟨-, hobserved⟩ := RunEnd.mk.inj he
      cases hobserved

/-- By induction on the states the observer saw, each of which is one more step of fuel. -/
theorem runs_iff_runFor {s t : State} {observed : List State} {o : StepOutcome} :
    runs s (observed.map fun u => { seen := u, writes := [] }) t o ↔
      ∃ n, runFor n s = .next { last := t, observed := observed } ∧ stepOutcome t = o ∧ o ≠ .running := by
  induction observed generalizing s with
  | nil => exact runs_nil_iff_runFor
  | cons u observed ih =>
    constructor
    · rintro ⟨hstep, hrunning, hlater⟩
      obtain ⟨n, hrun, ho⟩ := ih.mp hlater
      exact ⟨n + 1, runFor_goes_on hstep ((stepOutcome_eq_running u).mp hrunning) hrun, ho⟩
    · rintro ⟨n, hrun, ho⟩
      obtain ⟨-, -, he⟩ | ⟨m, v, -, -, -, he⟩ | ⟨m, v, e', -, hstep, hr, hlater, he⟩ := runFor_cases hrun
      · obtain ⟨-, hobserved⟩ := RunEnd.mk.inj he
        cases hobserved
      · obtain ⟨-, hobserved⟩ := RunEnd.mk.inj he
        cases hobserved
      · obtain ⟨rfl, hobserved⟩ := RunEnd.mk.inj he
        obtain ⟨rfl, rfl⟩ := List.cons.inj hobserved
        exact ⟨hstep, (stepOutcome_eq_running u).mpr hr, ih.mpr ⟨m, hlater, ho⟩⟩

/-- The calls of an observer that writes nothing are the states it saw. -/
theorem calls_eq_map_seen {calls : List ObserverCall} (h : makesWrites [] calls) :
    calls = (calls.map ObserverCall.seen).map fun u => { seen := u, writes := [] } := by
  have hwrites := (makesWrites_absent calls).mp h
  rw [List.map_map]
  conv_lhs => rw [← List.map_id calls]
  refine List.map_congr_left fun c hc => ?_
  have := hwrites c hc
  cases c
  simp_all

/-- Settles O58: the run relation without writes is run_for stopping, and a run command without writes is that relation. -/
theorem runReturnsWhereRunForStops : Obligations.RunReturnsWhereRunForStops := by
  refine fun s t => ⟨fun observed o => runs_iff_runFor, ?_, ?_⟩
  · rintro ⟨calls, o, hwrites, hruns⟩
    rw [calls_eq_map_seen hwrites] at hruns
    obtain ⟨n, hrun, rfl, ho⟩ := runs_iff_runFor.mp hruns
    exact ⟨n, _, hrun, fun hr => ho ((stepOutcome_eq_running t).mpr hr)⟩
  · rintro ⟨n, observed, hrun, hstop⟩
    refine ⟨_, stepOutcome t, (makesWrites_absent _).mpr ?_, runs_iff_runFor.mpr
      ⟨n, hrun, rfl, fun ho => hstop ((stepOutcome_eq_running t).mp ho)⟩⟩
    simp

/-! ### One answer -/

/-- The observer's calls follow a strategy: what it writes at its k-th call depends on k and on the state it is called
on. -/
def Follows : (Nat → State → HostWrites) → List ObserverCall → Prop
  | _, [] => True
  | strategy, c :: later => c.writes = strategy 0 c.seen ∧ Follows (fun k => strategy (k + 1)) later

theorem follows_of_observer {observer : State → HostWrites} {calls : List ObserverCall}
    (h : ∀ c ∈ calls, c.writes = observer c.seen) : Follows (fun _ => observer) calls := by
  induction calls with
  | nil => trivial
  | cons c later ih => exact ⟨h c (by simp), ih fun c' hc' => h c' (by simp [hc'])⟩

/-- Writes listed call by call are a strategy that looks at the call's number alone. -/
theorem follows_of_makesWrites {writes : List HostWrites} {calls : List ObserverCall} (h : makesWrites writes calls) :
    Follows (fun k _ => writes.getD k []) calls := by
  induction calls generalizing writes with
  | nil => trivial
  | cons c later ih =>
    obtain ⟨hc, hlater⟩ := (makesWrites_cons writes c later).mp h
    cases writes with
    | nil => exact ⟨hc, ih hlater⟩
    | cons w ws => exact ⟨hc, ih hlater⟩

/-- With a strategy for the observer a run returns at most once: the step that ends a run is not Running, and the state
after every other one is what the observer is called on. -/
theorem runs_unique {strategy : Nat → State → HostWrites} {s t t' : State} {calls calls' : List ObserverCall}
    {o o' : StepOutcome} (hc : Follows strategy calls) (hc' : Follows strategy calls') (h : runs s calls t o)
    (h' : runs s calls' t' o') : calls = calls' ∧ t = t' ∧ o = o' := by
  induction calls generalizing strategy s calls' with
  | nil =>
    obtain ⟨hstep, rfl, ho⟩ := h
    cases calls' with
    | nil =>
      obtain ⟨hstep', rfl, -⟩ := h'
      obtain rfl := Host.Outcome.next.inj (hstep.symm.trans hstep')
      exact ⟨rfl, rfl, rfl⟩
    | cons c' later' =>
      obtain ⟨hstep', hrunning, -⟩ := h'
      obtain rfl := Host.Outcome.next.inj (hstep.symm.trans hstep')
      exact absurd hrunning ho
  | cons c later ih =>
    obtain ⟨hstep, hrunning, hlater⟩ := h
    cases calls' with
    | nil =>
      obtain ⟨hstep', rfl, ho'⟩ := h'
      obtain rfl := Host.Outcome.next.inj (hstep.symm.trans hstep')
      exact absurd hrunning ho'
    | cons c' later' =>
      obtain ⟨hstep', -, hlater'⟩ := h'
      obtain ⟨hw, hc⟩ := hc
      obtain ⟨hw', hc'⟩ := hc'
      have hseen : c.seen = c'.seen := Host.Outcome.next.inj (hstep.symm.trans hstep')
      have hcall : c = c' := by
        cases c
        cases c'
        simp_all
      subst hcall
      obtain ⟨rfl, ht, ho⟩ := ih hc hc' hlater hlater'
      exact ⟨rfl, ht, ho⟩

/-- The first step of a run that returns answers a next state. -/
theorem step_next_of_runs {s t : State} {calls : List ObserverCall} {o : StepOutcome} (h : runs s calls t o) :
    ∃ u, step s = .next u := by
  cases calls with
  | nil =>
    obtain ⟨hstep, -, -⟩ := h
    exact ⟨t, hstep⟩
  | cons c later =>
    obtain ⟨hstep, -, -⟩ := h
    exact ⟨c.seen, hstep⟩

/-- Where no step exists the run command answers what the step does, and nothing else. -/
theorem performs_run_of_no_step {s : State} (h : ∀ u, step s ≠ .next u) (writes : List HostWrites) (r : Result) :
    performs (.run writes) s r ↔ r = step s := by
  cases r with
  | next t =>
    refine ⟨?_, fun hr => absurd hr.symm (h t)⟩
    rintro ⟨calls, o, -, hruns⟩
    obtain ⟨u, hu⟩ := step_next_of_runs hruns
    exact absurd hu (h u)
  | fault f => exact eq_comm
  | refused f => exact eq_comm

/-- Where a step exists the run command answers the ends of the runs whose observer makes its writes. -/
theorem performs_run_of_step {s u : State} (h : step s = .next u) (writes : List HostWrites) (r : Result) :
    performs (.run writes) s r ↔ ∃ t calls o, r = .next t ∧ makesWrites writes calls ∧ runs s calls t o := by
  cases r <;> simp [performs, h]

theorem performs_run_unique {writes : List HostWrites} {s : State} {r r' : Result} (h : performs (.run writes) s r)
    (h' : performs (.run writes) s r') : r = r' := by
  by_cases hstep : ∃ u, step s = .next u
  · obtain ⟨u, hu⟩ := hstep
    obtain ⟨t, calls, o, rfl, hw, hruns⟩ := (performs_run_of_step hu writes r).mp h
    obtain ⟨t', calls', o', rfl, hw', hruns'⟩ := (performs_run_of_step hu writes r').mp h'
    obtain ⟨-, rfl, -⟩ := runs_unique (follows_of_makesWrites hw) (follows_of_makesWrites hw') hruns hruns'
    rfl
  · have hnone : ∀ u, step s ≠ .next u := fun u hu => hstep ⟨u, hu⟩
    rw [(performs_run_of_no_step hnone writes r).mp h, (performs_run_of_no_step hnone writes r').mp h']

/-- A run apart, a command answers one value by definition. -/
theorem performs_unique {cmd : HostCommand} {s : State} {r r' : Result} (h : performs cmd s r)
    (h' : performs cmd s r') : r = r' := by
  cases cmd with
  | run writes => exact performs_run_unique h h'
  | construct | load _ | reset | step | write _ _ => exact Eq.trans h h'.symm

theorem performsAll_unique {cmds : List HostCommand} {s : State} {r r' : Result} (h : performsAll cmds s r)
    (h' : performsAll cmds s r') : r = r' := by
  induction cmds generalizing s with
  | nil => exact Eq.trans h h'.symm
  | cons cmd later ih =>
    obtain ⟨u, hu, hlater⟩ := h
    obtain ⟨u', hu', hlater'⟩ := h'
    obtain rfl := performs_unique hu hu'
    cases u with
    | next t => exact ih hlater hlater'
    | fault f => exact Eq.trans hlater hlater'.symm
    | refused f => exact Eq.trans hlater hlater'.symm

/-- Settles O59: an observer of the state alone is a strategy, and each command has one answer. -/
theorem runsAndHostCommandsHaveOneAnswer : Obligations.RunsAndHostCommandsHaveOneAnswer :=
  ⟨fun _ _ _ _ _ _ _ _ hw hw' => runs_unique (follows_of_observer hw) (follows_of_observer hw'),
    fun _ _ _ _ => performsAll_unique⟩

/-! ### Stopped cores -/

theorem step_of_stopped {s : State} {f : Fault}
    (h : s.runState = .halted ∧ f = .coreHalted ∨ ∃ r, s.runState = .faulted r ∧ f = .coreFaulted r) :
    step s = .fault f := by
  obtain ⟨hr, rfl⟩ | ⟨r, hr, rfl⟩ := h
  · exact (stoppedCoreHasNoStep s).1 hr
  · exact (stoppedCoreHasNoStep s).2 r hr

theorem runFor_of_stopped {s : State} {f : Fault}
    (h : s.runState = .halted ∧ f = .coreHalted ∨ ∃ r, s.runState = .faulted r ∧ f = .coreFaulted r) (n : Nat) :
    runFor n s = .fault f := by
  cases n with
  | zero => obtain ⟨hr, rfl⟩ | ⟨r, hr, rfl⟩ := h <;> simp only [runFor, hr]
  | succ n => simp only [runFor, step_of_stopped h]

/-- Settles O60: without a first step there is no run. -/
theorem stoppedCoreHasNoRun : Obligations.StoppedCoreHasNoRun := by
  intro s f h
  have hstep := step_of_stopped h
  have hnone : ∀ u, step s ≠ .next u := fun u hu => by
    rw [hstep] at hu
    cases hu
  refine ⟨fun calls t o hruns => ?_, fun writes r => ?_, runFor_of_stopped h⟩
  · obtain ⟨u, hu⟩ := step_next_of_runs hruns
    exact hnone u hu
  · rw [performs_run_of_no_step hnone writes r, hstep]

end Sys2Proof.Proofs
end
